-- ==== Sys2Proof/Word.lean ====
section
/-! DEFINITION. The word types of the QR-ECC core: the 32-bit command and result word, the byte, the
4-bit element of GF(2^4). Every value of the core is unsigned (00_scope.md R10). -/

namespace Sys2Proof

/-- A command word, or the result register (30_encoding.md R70, 10_state.md R21). -/
abbrev Word := BitVec 32

/-- A codeword, a coefficient, a byte of text: an element of GF(2^8) (10_state.md R28 to R31). -/
abbrev Byte := BitVec 8

/-- An element of GF(2^4) (10_state.md R34, R36). -/
abbrev Nibble := BitVec 4

end Sys2Proof
end

