-- ==== Sys2Proof/Syntax.lean ====
section
/-! DEFINITION. The 47 commands of 30_encoding.md R75, one constructor each, with the operands of the command's
format (R72) as the unsigned slices R73 says they are. Operands stand in the order of the "operands" column of
R75, which is the order of the textual form (R79). -/

namespace Sys2Proof

/-- A command of the core (30_encoding.md R75). -/
inductive Instr where
  /-- `NOP`: does nothing but report success (R100). -/
  | nop
  /-- `RST`: soft reset (R101). -/
  | rst
  /-- `RG.RD`: read register number `k` (R102). -/
  | rgRd (k : BitVec 8)
  /-- `ST.CLR`: clear the sticky failure flag (R103). -/
  | stClr
  /-- `GF8.MUL`: product in GF(2^8) (R114). -/
  | gf8Mul (a : BitVec 8) (b : BitVec 8)
  /-- `GF8.EXP`: entry of the GF(2^8) exp table (R115). -/
  | gf8Exp (i : BitVec 8)
  /-- `GF8.LOG`: entry of the GF(2^8) log table (R116). -/
  | gf8Log (a : BitVec 8)
  /-- `GF4.MUL`: product in GF(2^4) (R119). -/
  | gf4Mul (a : BitVec 8) (b : BitVec 8)
  /-- `GF4.EXP`: entry of the GF(2^4) exp table (R120). -/
  | gf4Exp (i : BitVec 8)
  /-- `GF4.LOG`: entry of the GF(2^4) log table (R121). -/
  | gf4Log (a : BitVec 8)
  /-- `BB.CLR`: empty the bit buffer (R131). -/
  | bbClr
  /-- `BB.APP`: append the `n`-bit field `v` to the bit buffer (R132). -/
  | bbApp (n : BitVec 5) (v : BitVec 16)
  /-- `BB.RD`: read one bit of the bit buffer (R133). -/
  | bbRd (i : BitVec 16)
  /-- `TX.CLR`: empty the text buffer (R134). -/
  | txClr
  /-- `TX.PUSH`: append one byte to the text buffer (R135). -/
  | txPush (c : BitVec 8)
  /-- `SG.CLR`: empty the segment list (R142). -/
  | sgClr
  /-- `SG.NUM`: build a numeric segment from `TX` (R143). -/
  | sgNum
  /-- `SG.ALN`: build an alphanumeric segment from `TX` (R144). -/
  | sgAln
  /-- `SG.BYT`: build a byte segment from `TX` (R145). -/
  | sgByt
  /-- `SG.RD`: read field `k` of segment record `i` (R146). -/
  | sgRd (i : BitVec 16) (k : BitVec 2)
  /-- `CF.GEN`: generate the degree-`d` divisor (R166). -/
  | cfGen (d : BitVec 8)
  /-- `CF.SET`: set the degree and zero the coefficients (R167). -/
  | cfSet (d : BitVec 8)
  /-- `CF.WR`: write one coefficient (R168). -/
  | cfWr (i : BitVec 16) (v : BitVec 8)
  /-- `CF.RD`: read one coefficient (R169). -/
  | cfRd (i : BitVec 16)
  /-- `RM.INIT`: clear the division window (R170). -/
  | rmInit
  /-- `RM.STEP`: feed one codeword into the divider (R171). -/
  | rmStep (b : BitVec 8)
  /-- `RM.RD`: read one byte of the window (R172). -/
  | rmRd (i : BitVec 16)
  /-- `RS.REM`: remainder of a slice of `CW` (R173). -/
  | rsRem (off : BitVec 12) (len : BitVec 12)
  /-- `CW.CLR`: empty the codeword buffer (R174). -/
  | cwClr
  /-- `CW.PUSH`: append one codeword (R175). -/
  | cwPush (b : BitVec 8)
  /-- `CW.RD`: read one codeword (R176). -/
  | cwRd (i : BitVec 16)
  /-- `SG.TOT`: bits the segment list needs at a version (R194). -/
  | sgTot (ver : BitVec 8)
  /-- `AS.CAT`: replace `BB` by the concatenated segments (R195). -/
  | asCat (ver : BitVec 8)
  /-- `AS.TERM`: append the terminator (R196). -/
  | asTerm (cap : BitVec 16)
  /-- `AS.ALIGN`: pad to a byte boundary (R197). -/
  | asAlign
  /-- `AS.PAD`: append pad codewords up to `cap` (R198). -/
  | asPad (cap : BitVec 16)
  /-- `AS.PACK`: pack `BB` into `CW` (R199). -/
  | asPack
  /-- `MK.BIT`: mask predicate `m` at column `x`, row `y` (R212). -/
  | mkBit (m : BitVec 3) (x : BitVec 8) (y : BitVec 8)
  /-- `FM.ENC`: encode a 5-bit format value (R224). -/
  | fmEnc (f : BitVec 8)
  /-- `FM.DEC`: nearest-match decode of a format word (R225). -/
  | fmDec (w : BitVec 18)
  /-- `FM.SYN`: syndromes of an unmasked word (R241). -/
  | fmSyn (u : BitVec 18)
  /-- `FM.COR`: correct a format word by the syndrome path (R242). -/
  | fmCor (w : BitVec 18)
  /-- `VR.ENC`: encode a version number (R229). -/
  | vrEnc (v : BitVec 8)
  /-- `VR.DEC`: nearest-match decode of a version word (R230). -/
  | vrDec (w : BitVec 18)
  /-- `SY.RD`: read one stored syndrome (R243). -/
  | syRd (i : BitVec 16)
  /-- `LC.RD`: read one locator coefficient (R244). -/
  | lcRd (i : BitVec 16)
  /-- `LC.EVAL`: evaluate the stored locator (R245). -/
  | lcEval (x : BitVec 8)
  deriving DecidableEq, Repr

/-- The mnemonic of a command, as R75 spells it. -/
def Instr.mnemonic : Instr → String
  | .nop => "NOP"
  | .rst => "RST"
  | .rgRd _ => "RG.RD"
  | .stClr => "ST.CLR"
  | .gf8Mul _ _ => "GF8.MUL"
  | .gf8Exp _ => "GF8.EXP"
  | .gf8Log _ => "GF8.LOG"
  | .gf4Mul _ _ => "GF4.MUL"
  | .gf4Exp _ => "GF4.EXP"
  | .gf4Log _ => "GF4.LOG"
  | .bbClr => "BB.CLR"
  | .bbApp _ _ => "BB.APP"
  | .bbRd _ => "BB.RD"
  | .txClr => "TX.CLR"
  | .txPush _ => "TX.PUSH"
  | .sgClr => "SG.CLR"
  | .sgNum => "SG.NUM"
  | .sgAln => "SG.ALN"
  | .sgByt => "SG.BYT"
  | .sgRd _ _ => "SG.RD"
  | .cfGen _ => "CF.GEN"
  | .cfSet _ => "CF.SET"
  | .cfWr _ _ => "CF.WR"
  | .cfRd _ => "CF.RD"
  | .rmInit => "RM.INIT"
  | .rmStep _ => "RM.STEP"
  | .rmRd _ => "RM.RD"
  | .rsRem _ _ => "RS.REM"
  | .cwClr => "CW.CLR"
  | .cwPush _ => "CW.PUSH"
  | .cwRd _ => "CW.RD"
  | .sgTot _ => "SG.TOT"
  | .asCat _ => "AS.CAT"
  | .asTerm _ => "AS.TERM"
  | .asAlign => "AS.ALIGN"
  | .asPad _ => "AS.PAD"
  | .asPack => "AS.PACK"
  | .mkBit _ _ _ => "MK.BIT"
  | .fmEnc _ => "FM.ENC"
  | .fmDec _ => "FM.DEC"
  | .fmSyn _ => "FM.SYN"
  | .fmCor _ => "FM.COR"
  | .vrEnc _ => "VR.ENC"
  | .vrDec _ => "VR.DEC"
  | .syRd _ => "SY.RD"
  | .lcRd _ => "LC.RD"
  | .lcEval _ => "LC.EVAL"

/-- The operands of a command in the order of the textual form (R79), as the numbers they are (R73). -/
def Instr.operands : Instr → List Nat
  | .nop => []
  | .rst => []
  | .rgRd k => [k.toNat]
  | .stClr => []
  | .gf8Mul a b => [a.toNat, b.toNat]
  | .gf8Exp i => [i.toNat]
  | .gf8Log a => [a.toNat]
  | .gf4Mul a b => [a.toNat, b.toNat]
  | .gf4Exp i => [i.toNat]
  | .gf4Log a => [a.toNat]
  | .bbClr => []
  | .bbApp n v => [n.toNat, v.toNat]
  | .bbRd i => [i.toNat]
  | .txClr => []
  | .txPush c => [c.toNat]
  | .sgClr => []
  | .sgNum => []
  | .sgAln => []
  | .sgByt => []
  | .sgRd i k => [i.toNat, k.toNat]
  | .cfGen d => [d.toNat]
  | .cfSet d => [d.toNat]
  | .cfWr i v => [i.toNat, v.toNat]
  | .cfRd i => [i.toNat]
  | .rmInit => []
  | .rmStep b => [b.toNat]
  | .rmRd i => [i.toNat]
  | .rsRem off len => [off.toNat, len.toNat]
  | .cwClr => []
  | .cwPush b => [b.toNat]
  | .cwRd i => [i.toNat]
  | .sgTot ver => [ver.toNat]
  | .asCat ver => [ver.toNat]
  | .asTerm cap => [cap.toNat]
  | .asAlign => []
  | .asPad cap => [cap.toNat]
  | .asPack => []
  | .mkBit m x y => [m.toNat, x.toNat, y.toNat]
  | .fmEnc f => [f.toNat]
  | .fmDec w => [w.toNat]
  | .fmSyn u => [u.toNat]
  | .fmCor w => [w.toNat]
  | .vrEnc v => [v.toNat]
  | .vrDec w => [w.toNat]
  | .syRd i => [i.toNat]
  | .lcRd i => [i.toNat]
  | .lcEval x => [x.toNat]

/-- The textual form of a command (R79): the mnemonic alone, or the mnemonic, a space and the operands in decimal
separated by a comma and a space. -/
def Instr.text (i : Instr) : String :=
  match i.operands with
  | [] => i.mnemonic
  | ops => i.mnemonic ++ " " ++ String.intercalate ", " (ops.map toString)

end Sys2Proof
end

