-- ==== Sys2Proof/Decode.lean ====
section
/-! DEFINITION. The command decoder and encoder of 30_encoding.md (R70 to R76). A command is one 32-bit word,
`op = c[31:24]` and `arg = c[23:0]` (R71). Decoding is total: a word is a command or is rejected by name, and both
rejections end with the outcome `ILLEGAL_CMD` (R74, R76). -/

namespace Sys2Proof

/-- Why a word is no command, in the order R78 tests. -/
inductive DecodeError where
  /-- The opcode is not one of the 47 of R75 (R76). -/
  | unassignedOpcode
  /-- A must-be-zero bit of the opcode's format is 1 (R74). -/
  | reservedBits
  deriving DecidableEq, Repr

/-- The ten argument formats (R72). -/
inductive Format where
  | N | B | BB | I | IV | NV | IK | OL | W | M
  deriving DecidableEq, Repr

/-- The must-be-zero bits of a format, as a mask over the argument field (R72). -/
def Format.reserved : Format → BitVec 24
  | .N => 0xFFFFFF
  | .B => 0xFFFF00
  | .BB => 0xFF0000
  | .I => 0xFF0000
  | .IV => 0x000000
  | .NV => 0xE00000
  | .IK => 0xFC0000
  | .OL => 0x000000
  | .W => 0xFC0000
  | .M => 0xF80000

/-- What a decoder answers. -/
abbrev Decoded := Except DecodeError Instr

/-- Check the must-be-zero bits of format `f` (R74), then give the command `i` the opcode selects. -/
def checked (f : Format) (arg : BitVec 24) (i : Instr) : Decoded :=
  if arg &&& f.reserved = 0 then .ok i else .error .reservedBits

/-- Format `N`: no operand. -/
def formN (arg : BitVec 24) (i : Instr) : Decoded := checked .N arg i

/-- Format `B`: `a = c[7:0]`. -/
def formB (arg : BitVec 24) (k : BitVec 8 → Instr) : Decoded :=
  checked .B arg (k (arg.extractLsb' 0 8))

/-- Format `BB`: `a = c[7:0]`, `b = c[15:8]`. -/
def formBB (arg : BitVec 24) (k : BitVec 8 → BitVec 8 → Instr) : Decoded :=
  checked .BB arg (k (arg.extractLsb' 0 8) (arg.extractLsb' 8 8))

/-- Format `I`: `i = c[15:0]`. -/
def formI (arg : BitVec 24) (k : BitVec 16 → Instr) : Decoded :=
  checked .I arg (k (arg.extractLsb' 0 16))

/-- Format `IV`: `i = c[15:0]`, `v = c[23:16]`. -/
def formIV (arg : BitVec 24) (k : BitVec 16 → BitVec 8 → Instr) : Decoded :=
  checked .IV arg (k (arg.extractLsb' 0 16) (arg.extractLsb' 16 8))

/-- Format `NV`: `v = c[15:0]`, `n = c[20:16]`; the command takes `n` first. -/
def formNV (arg : BitVec 24) (k : BitVec 5 → BitVec 16 → Instr) : Decoded :=
  checked .NV arg (k (arg.extractLsb' 16 5) (arg.extractLsb' 0 16))

/-- Format `IK`: `i = c[15:0]`, `k = c[17:16]`. -/
def formIK (arg : BitVec 24) (k : BitVec 16 → BitVec 2 → Instr) : Decoded :=
  checked .IK arg (k (arg.extractLsb' 0 16) (arg.extractLsb' 16 2))

/-- Format `OL`: `off = c[11:0]`, `len = c[23:12]`. -/
def formOL (arg : BitVec 24) (k : BitVec 12 → BitVec 12 → Instr) : Decoded :=
  checked .OL arg (k (arg.extractLsb' 0 12) (arg.extractLsb' 12 12))

/-- Format `W`: `w = c[17:0]`. -/
def formW (arg : BitVec 24) (k : BitVec 18 → Instr) : Decoded :=
  checked .W arg (k (arg.extractLsb' 0 18))

/-- Format `M`: `x = c[7:0]`, `y = c[15:8]`, `m = c[18:16]`; the command takes `m` first. -/
def formM (arg : BitVec 24) (k : BitVec 3 → BitVec 8 → BitVec 8 → Instr) : Decoded :=
  checked .M arg (k (arg.extractLsb' 16 3) (arg.extractLsb' 0 8) (arg.extractLsb' 8 8))

/-- The opcode map of R75: the opcode alone selects the command and the format of `arg` (R71); every opcode it does
not list is unassigned (R76). -/
def decodeParts (op : BitVec 8) (arg : BitVec 24) : Decoded :=
  match op.toNat with
  | 0x00 => formN arg .nop
  | 0x01 => formN arg .rst
  | 0x02 => formB arg .rgRd
  | 0x03 => formN arg .stClr
  | 0x10 => formBB arg .gf8Mul
  | 0x11 => formB arg .gf8Exp
  | 0x12 => formB arg .gf8Log
  | 0x20 => formBB arg .gf4Mul
  | 0x21 => formB arg .gf4Exp
  | 0x22 => formB arg .gf4Log
  | 0x30 => formN arg .bbClr
  | 0x31 => formNV arg .bbApp
  | 0x32 => formI arg .bbRd
  | 0x33 => formN arg .txClr
  | 0x34 => formB arg .txPush
  | 0x35 => formN arg .sgClr
  | 0x36 => formN arg .sgNum
  | 0x37 => formN arg .sgAln
  | 0x38 => formN arg .sgByt
  | 0x39 => formIK arg .sgRd
  | 0x40 => formB arg .cfGen
  | 0x41 => formB arg .cfSet
  | 0x42 => formIV arg .cfWr
  | 0x43 => formI arg .cfRd
  | 0x44 => formN arg .rmInit
  | 0x45 => formB arg .rmStep
  | 0x46 => formI arg .rmRd
  | 0x47 => formOL arg .rsRem
  | 0x48 => formN arg .cwClr
  | 0x49 => formB arg .cwPush
  | 0x4A => formI arg .cwRd
  | 0x50 => formB arg .sgTot
  | 0x51 => formB arg .asCat
  | 0x52 => formI arg .asTerm
  | 0x53 => formN arg .asAlign
  | 0x54 => formI arg .asPad
  | 0x55 => formN arg .asPack
  | 0x60 => formM arg .mkBit
  | 0x70 => formB arg .fmEnc
  | 0x71 => formW arg .fmDec
  | 0x72 => formW arg .fmSyn
  | 0x73 => formW arg .fmCor
  | 0x74 => formB arg .vrEnc
  | 0x75 => formW arg .vrDec
  | 0x76 => formI arg .syRd
  | 0x77 => formI arg .lcRd
  | 0x78 => formB arg .lcEval
  | _ => .error .unassignedOpcode

/-- Decode one command word (R71). -/
def decode (c : Word) : Decoded :=
  decodeParts (c.extractLsb' 24 8) (c.extractLsb' 0 24)

/-! ## The encoder, written from the same tables (R71, R72, R75) -/

/-- The opcode of a command (R75). -/
def Instr.opcode : Instr → BitVec 8
  | .nop => 0x00
  | .rst => 0x01
  | .rgRd _ => 0x02
  | .stClr => 0x03
  | .gf8Mul _ _ => 0x10
  | .gf8Exp _ => 0x11
  | .gf8Log _ => 0x12
  | .gf4Mul _ _ => 0x20
  | .gf4Exp _ => 0x21
  | .gf4Log _ => 0x22
  | .bbClr => 0x30
  | .bbApp _ _ => 0x31
  | .bbRd _ => 0x32
  | .txClr => 0x33
  | .txPush _ => 0x34
  | .sgClr => 0x35
  | .sgNum => 0x36
  | .sgAln => 0x37
  | .sgByt => 0x38
  | .sgRd _ _ => 0x39
  | .cfGen _ => 0x40
  | .cfSet _ => 0x41
  | .cfWr _ _ => 0x42
  | .cfRd _ => 0x43
  | .rmInit => 0x44
  | .rmStep _ => 0x45
  | .rmRd _ => 0x46
  | .rsRem _ _ => 0x47
  | .cwClr => 0x48
  | .cwPush _ => 0x49
  | .cwRd _ => 0x4A
  | .sgTot _ => 0x50
  | .asCat _ => 0x51
  | .asTerm _ => 0x52
  | .asAlign => 0x53
  | .asPad _ => 0x54
  | .asPack => 0x55
  | .mkBit _ _ _ => 0x60
  | .fmEnc _ => 0x70
  | .fmDec _ => 0x71
  | .fmSyn _ => 0x72
  | .fmCor _ => 0x73
  | .vrEnc _ => 0x74
  | .vrDec _ => 0x75
  | .syRd _ => 0x76
  | .lcRd _ => 0x77
  | .lcEval _ => 0x78

/-- The argument format of a command (R75). -/
def Instr.format : Instr → Format
  | .nop => .N
  | .rst => .N
  | .rgRd _ => .B
  | .stClr => .N
  | .gf8Mul _ _ => .BB
  | .gf8Exp _ => .B
  | .gf8Log _ => .B
  | .gf4Mul _ _ => .BB
  | .gf4Exp _ => .B
  | .gf4Log _ => .B
  | .bbClr => .N
  | .bbApp _ _ => .NV
  | .bbRd _ => .I
  | .txClr => .N
  | .txPush _ => .B
  | .sgClr => .N
  | .sgNum => .N
  | .sgAln => .N
  | .sgByt => .N
  | .sgRd _ _ => .IK
  | .cfGen _ => .B
  | .cfSet _ => .B
  | .cfWr _ _ => .IV
  | .cfRd _ => .I
  | .rmInit => .N
  | .rmStep _ => .B
  | .rmRd _ => .I
  | .rsRem _ _ => .OL
  | .cwClr => .N
  | .cwPush _ => .B
  | .cwRd _ => .I
  | .sgTot _ => .B
  | .asCat _ => .B
  | .asTerm _ => .I
  | .asAlign => .N
  | .asPad _ => .I
  | .asPack => .N
  | .mkBit _ _ _ => .M
  | .fmEnc _ => .B
  | .fmDec _ => .W
  | .fmSyn _ => .W
  | .fmCor _ => .W
  | .vrEnc _ => .B
  | .vrDec _ => .W
  | .syRd _ => .I
  | .lcRd _ => .I
  | .lcEval _ => .B

/-- Argument of format `B`. -/
def argB (a : BitVec 8) : BitVec 24 := 0#16 ++ a

/-- Argument of format `BB`. -/
def argBB (a b : BitVec 8) : BitVec 24 := 0#8 ++ (b ++ a)

/-- Argument of format `I`. -/
def argI (i : BitVec 16) : BitVec 24 := 0#8 ++ i

/-- Argument of format `IV`. -/
def argIV (i : BitVec 16) (v : BitVec 8) : BitVec 24 := v ++ i

/-- Argument of format `NV`. -/
def argNV (n : BitVec 5) (v : BitVec 16) : BitVec 24 := 0#3 ++ (n ++ v)

/-- Argument of format `IK`. -/
def argIK (i : BitVec 16) (k : BitVec 2) : BitVec 24 := 0#6 ++ (k ++ i)

/-- Argument of format `OL`. -/
def argOL (off len : BitVec 12) : BitVec 24 := len ++ off

/-- Argument of format `W`. -/
def argW (w : BitVec 18) : BitVec 24 := 0#6 ++ w

/-- Argument of format `M`. -/
def argM (m : BitVec 3) (x y : BitVec 8) : BitVec 24 := 0#5 ++ (m ++ (y ++ x))

/-- The argument field of a command (R72). -/
def Instr.argField : Instr → BitVec 24
  | .nop => 0
  | .rst => 0
  | .rgRd k => argB k
  | .stClr => 0
  | .gf8Mul a b => argBB a b
  | .gf8Exp i => argB i
  | .gf8Log a => argB a
  | .gf4Mul a b => argBB a b
  | .gf4Exp i => argB i
  | .gf4Log a => argB a
  | .bbClr => 0
  | .bbApp n v => argNV n v
  | .bbRd i => argI i
  | .txClr => 0
  | .txPush c => argB c
  | .sgClr => 0
  | .sgNum => 0
  | .sgAln => 0
  | .sgByt => 0
  | .sgRd i k => argIK i k
  | .cfGen d => argB d
  | .cfSet d => argB d
  | .cfWr i v => argIV i v
  | .cfRd i => argI i
  | .rmInit => 0
  | .rmStep b => argB b
  | .rmRd i => argI i
  | .rsRem off len => argOL off len
  | .cwClr => 0
  | .cwPush b => argB b
  | .cwRd i => argI i
  | .sgTot ver => argB ver
  | .asCat ver => argB ver
  | .asTerm cap => argI cap
  | .asAlign => 0
  | .asPad cap => argI cap
  | .asPack => 0
  | .mkBit m x y => argM m x y
  | .fmEnc f => argB f
  | .fmDec w => argW w
  | .fmSyn u => argW u
  | .fmCor w => argW w
  | .vrEnc v => argB v
  | .vrDec w => argW w
  | .syRd i => argI i
  | .lcRd i => argI i
  | .lcEval x => argB x

/-- The command word of a command (R71). -/
def encode (i : Instr) : Word := i.opcode ++ i.argField

/-- The `mask` of the command's row of the opcode table: the opcode and the must-be-zero bits of its format (R75). -/
def Instr.rowMask (i : Instr) : Word := 0xFF#8 ++ i.format.reserved

/-- The `match` of the command's row of the opcode table (R75). -/
def Instr.rowMatch (i : Instr) : Word := i.opcode ++ 0#24

/-- The command the decoder reads from a word numbered as spec/opcode_table.json numbers its bits: one 32-bit word,
bit 0 its least significant; bits above `nbits` are 0. -/
def decodeTableWord (nbits w : Nat) : Option Instr :=
  match decode (BitVec.ofNat 32 (w % 2 ^ nbits)) with
  | .ok i => some i
  | .error _ => none

end Sys2Proof
end

