-- ==== Sys2Proof/Config.lean ====
section
/-! DEFINITION. The implementation parameters of 00_scope.md R8 at the spec's default values.
DESIGN CHOICE (unsafe, log entry 1): the spec leaves each size open within a constraint and gives a default;
the model takes the defaults. `Config.Admissible` is R8's column of constraints; it is proved of the values
below in Sys2Proof/Laws/Config.lean, and the proofs about the machine need no more of them. -/

namespace Sys2Proof.Config

/-- `DEG_MAX`, the largest generator degree (R8). -/
def degMax : Nat := 255

/-- `CW_MAX`, the capacity of `CW` in bytes (R8). -/
def cwMax : Nat := 4096

/-- `TX_MAX`, the capacity of `TX` in bytes (R8). -/
def txMax : Nat := 8192

/-- `BB_MAX`, the capacity of `BB` in bits, and the limit on the sum of all segment payload bits (R8). -/
def bbMax : Nat := 32768

/-- `SEG_MAX`, the largest number of segment records (R8). -/
def segMax : Nat := 16

/-- `MAX_POLY`, the length of the polynomial arrays of the syndrome path (R8; PRESUMED by the spec, G1). -/
def maxPoly : Nat := 64

/-- The constraints R8 puts on the parameters. -/
def Admissible (deg cw tx bb sg poly : Nat) : Prop :=
  (1 ≤ deg ∧ deg ≤ 255) ∧ (1 ≤ cw ∧ cw ≤ 4096) ∧ (1 ≤ tx ∧ tx ≤ 65535) ∧
  (bb % 8 = 0 ∧ 8 ≤ bb ∧ bb ≤ 65528) ∧ (1 ≤ sg ∧ sg ≤ 65535) ∧ 7 ≤ poly

end Sys2Proof.Config
end

