-- ==== Sys2Proof/Machine/State.lean ====
section
/-! DEFINITION. The architectural state of one QR-ECC core (10_state.md R20) as plain data, its reset value (R40), and
the reasons a step can stop. The lengths `CWLEN`, `TXLEN`, `BBLEN`, `SGCNT` are computed from the sequences, as R20
allows. The two last fields are not the core's: they are the host's command stream and the index into it that R22
lets a model keep (log entry 3). -/

namespace Sys2Proof.Machine

/-- The outcome codes of 60_exceptions.md R321. Their numbers are `codeNumber` in Machine/Flags.lean. -/
inductive Code where
  /-- 0 `OK`: the command succeeded. -/
  | ok
  /-- 1 `ILLEGAL_CMD`: unassigned opcode, or a must-be-zero bit is 1. -/
  | illegalCmd
  /-- 2 `BAD_OPERAND`: an operand is outside the range its rule gives. -/
  | badOperand
  /-- 3 `BAD_STATE`: no divisor loaded, or `BBLEN` not a multiple of 8. -/
  | badState
  /-- 4 `OVERFLOW`: an append or replace would exceed a capacity. -/
  | overflow
  /-- 5 `SEG_CHARSET`: the text holds a character outside the mode's set. -/
  | segCharset
  /-- 6 `SEG_EMPTY`: empty input in byte mode. -/
  | segEmpty
  /-- 7 `CAPACITY`: the bits do not fit, or a count does not fit its field. -/
  | capacity
  /-- 8 `FORMAT_ECC`: the format word cannot be decoded. -/
  | formatEcc
  /-- 9 `VERSION_ECC`: the version word cannot be decoded. -/
  | versionEcc
  deriving DecidableEq, Repr

/-- `STATUS` (R23): the outcome code of the most recent command and the sticky failure flag. All other bits of the
register read 0 and cannot be written, so they are not stored; the 32-bit value is `statusWord` (log entry 7). -/
structure Status where
  code : Code
  sticky : Bool
  deriving DecidableEq, Repr

/-- The encoding mode of a segment record. R33 gives the field 4 bits and R82 names the indicators; the four modes here
are those for which 44_assembler.md R191 gives a count width. No command creates a `kanji` record (R33, D32; log
entry 5). The indicator is `modeIndicator` in Machine/Segments.lean. -/
inductive Mode where
  | numeric
  | alphanumeric
  | byte
  | kanji
  deriving DecidableEq, Repr

/-- A segment record (R33): mode, character count, payload bits in insertion order. -/
structure Segment where
  mode : Mode
  count : Nat
  bits : List Bool
  deriving DecidableEq, Repr

/-- The machine's state: the tuple of R20, then the model's own two fields. -/
structure State where
  /-- `RES`, the result of the last command (R21). -/
  res : Word
  /-- `STATUS` (R23). -/
  status : Status
  /-- `DEG`, the current generator degree, 0 when no divisor is loaded (R24). -/
  deg : Byte
  /-- `COEF`, the divisor coefficients, highest power first, leading 1 dropped (R28). -/
  coef : List Byte
  /-- `REM`, the division window, front first (R29). -/
  rem : List Byte
  /-- `CW`, the codeword buffer (R30). -/
  cw : List Byte
  /-- `TX`, the text buffer (R31). -/
  tx : List Byte
  /-- `BB`, the bit buffer, first inserted bit first (R32). -/
  bb : List Bool
  /-- `SEG`, the segment list (R33). -/
  seg : List Segment
  /-- `SYN`, the six format syndromes; element `i` is S(i+1) (R34). -/
  syn : Vector Nibble 6
  /-- `SIGMA`, the error-locator polynomial by power (R34). -/
  sigma : Vector Nibble Config.maxPoly
  /-- The model's own: the words the host presents, in order (R22, 70 R363; log entry 3). -/
  cmds : List Word
  /-- The model's own: the position in `cmds`; no command can read it (R22; log entry 3). -/
  idx : Nat
  deriving DecidableEq, Repr

/-- The state after reset (R40, 70 R350): every piece of the core's state at the value R40 states. The command stream is
empty and its index 0 (DESIGN CHOICE, log entry 3: the stream is the host's, loaded from outside). -/
def State.reset : State where
  res := 0
  status := { code := .ok, sticky := false }
  deg := 0
  coef := []
  rem := []
  cw := []
  tx := []
  bb := []
  seg := []
  syn := Vector.replicate 6 0
  sigma := Vector.replicate Config.maxPoly 0
  cmds := []
  idx := 0

/-- Why a step stops with a fault. -/
inductive Fault where
  /-- Raised by `step` alone, when the host has presented no further word: there is no command to execute, and the run is
  over (70 R363). Safe: the hardware waits and keeps its state (60 R335); the model stops. Log entry 4. -/
  | noCommand
  deriving DecidableEq, Repr

/-- Why an instruction has no meaning. -/
inductive Refusal where
  /-- Raised only by an arm of `exec` whose instruction is not modelled; no arm is. Safe: the model stops. -/
  | notModelled (mnemonic : String)
  deriving DecidableEq, Repr

/-- What a meaning answers. -/
abbrev Result := Host.Outcome State Fault Refusal

end Sys2Proof.Machine
end

