-- ==== Sys2Proof/Machine/Flags.lean ====
section
/-! DEFINITION. The status register: the numbers of the outcome codes (60_exceptions.md R321), the register's 32-bit value
(10_state.md R23), and what a success and a failure make of it (R322, 00_scope.md R13). These are the only flags of the
core (R23). -/

namespace Sys2Proof.Machine

/-- The number of an outcome code (60 R321). -/
def codeNumber : Code → BitVec 8
  | .ok => 0
  | .illegalCmd => 1
  | .badOperand => 2
  | .badState => 3
  | .overflow => 4
  | .segCharset => 5
  | .segEmpty => 6
  | .capacity => 7
  | .formatEcc => 8
  | .versionEcc => 9

/-- The 32-bit value of `STATUS` (R23): `CODE` in bits 7:0, `STICKY` in bit 8, bits 31:9 zero. -/
def statusWord (st : Status) : Word :=
  0#23 ++ BitVec.ofBool st.sticky ++ codeNumber st.code

/-- `STATUS` after a success: `CODE <- 0`, `STICKY` unchanged (R23). -/
def statusAfterOk (st : Status) : Status := { st with code := .ok }

/-- `STATUS` after a failure with code `k`: `CODE <- k`, `STICKY <- 1` (60 R322). -/
def statusAfterFail (k : Code) : Status := { code := k, sticky := true }

/-- `STATUS` with the sticky flag cleared (40_system.md R103). -/
def statusCleared (st : Status) : Status := { st with sticky := false }

end Sys2Proof.Machine
end

