-- ==== Sys2Proof/Machine/Operands.lean ====
section
/-! DEFINITION. Operand and bit-order forms: zero extension into `RES` (00_scope.md R13), the bits of a field most
significant first (20_memory.md R52), and the packing of bits into codewords (R53). Operands themselves are unsigned
slices that nothing extends, scales or truncates (30_encoding.md R73), so there is no further operand form. -/

namespace Sys2Proof.Machine

/-- `zext_32(v)` (R13). -/
def zext {n : Nat} (v : BitVec n) : Word := v.setWidth 32

/-- A natural number in `RES`. Every number a command returns is below `2^32` in a reachable state (log entry 10). -/
def natWord (n : Nat) : Word := BitVec.ofNat 32 n

/-- A bit in `RES[0]` (20 R55). -/
def bitWord (b : Bool) : Word := natWord b.toNat

/-- `bits_n(v)` (R13, R52): the `n` low bits of `v`, most significant first. -/
def bitsOf : Nat → Nat → List Bool
  | 0, _ => []
  | n + 1, v => v.testBit n :: bitsOf n v

/-- The number whose bits, most significant first, are the list. -/
def bitsToNat (bs : List Bool) : Nat := bs.foldl (fun v b => 2 * v + b.toNat) 0

/-- The first `n` codewords packed from a bit sequence, eight bits each, the first bit the most significant (R53). -/
def packBytes : Nat → List Bool → List Byte
  | 0, _ => []
  | n + 1, bs => BitVec.ofNat 8 (bitsToNat (bs.take 8)) :: packBytes n (bs.drop 8)

end Sys2Proof.Machine
end

