-- ==== Sys2Proof/Machine/Ops.lean ====
section
/-! DEFINITION. The named operations over the registers and buffers. A command ends in one of two ways (00_scope.md R13):
`ok v s`, which writes `RES` and `STATUS.CODE`, or `fail k s`, the one failure operation (60_exceptions.md R322). The
core has no trap, so `fail` is the whole of its exception entry, and there is no return to model (60 R327, R328). -/

namespace Sys2Proof.Machine

/-! ## The two endings -/

/-- The state a success leaves: `STATUS.CODE <- 0`, `RES <- v`, all else kept (R13, 10_state.md R21, R23). -/
def okState (v : Word) (s : State) : State :=
  { s with status := statusAfterOk s.status, res := v }

/-- The state a failure with code `k` leaves: `STATUS.CODE <- k`, `STATUS.STICKY <- 1`, `RES <- 0`, all else kept (R322). -/
def failState (k : Code) (s : State) : State :=
  { s with status := statusAfterFail k, res := 0 }

/-- `ok v` (R13). -/
def ok (v : Word) (s : State) : Result := .next (okState v s)

/-- `fail CODE` (R13, R322). -/
def fail (k : Code) (s : State) : Result := .next (failState k s)

/-! ## Writes, one per register or buffer -/

/-- Write `STATUS`. -/
def setStatus (x : Status) (s : State) : State := { s with status := x }

/-- Write `COEF` (R28). -/
def setCoef (x : List Byte) (s : State) : State := { s with coef := x }

/-- Write `REM` (R29). -/
def setRem (x : List Byte) (s : State) : State := { s with rem := x }

/-- Write `CW` (R30). -/
def setCw (x : List Byte) (s : State) : State := { s with cw := x }

/-- Write `TX` (R31). -/
def setTx (x : List Byte) (s : State) : State := { s with tx := x }

/-- Write `BB` (R32). -/
def setBb (x : List Bool) (s : State) : State := { s with bb := x }

/-- Write `SEG` (R33). -/
def setSeg (x : List Segment) (s : State) : State := { s with seg := x }

/-- Write `SYN` (R34). -/
def setSyn (x : Vector Nibble 6) (s : State) : State := { s with syn := x }

/-- Write `SIGMA` (R34). -/
def setSigma (x : Vector Nibble Config.maxPoly) (s : State) : State := { s with sigma := x }

/-- Load a divisor of degree `d` and zero the window of that length (43_rs_encoder.md R166, R167). -/
def loadDivisor (d : Byte) (c : List Byte) (s : State) : State :=
  { s with deg := d, coef := c, rem := List.replicate d.toNat 0 }

/-- Move the index of the command stream on by one (10 R22). -/
def advance (s : State) : State := { s with idx := s.idx + 1 }

/-- Every piece of the core's state at its reset value (R40, R101); the host's command stream is not the core's and stays. -/
def resetCore (s : State) : State := { State.reset with cmds := s.cmds, idx := s.idx }

/-! ## Reads -/

/-- `BufRead(B, i)` as a command (R13, 20_memory.md R65): element `i` of a buffer in `RES`, or `BAD_OPERAND` when `i` is at or
beyond the buffer's length. -/
def readAt {α : Type} (buf : List α) (i : Nat) (f : α → Word) (s : State) : Result :=
  match buf[i]? with
  | some x => ok (f x) s
  | none => fail .badOperand s

/-- Register number `k` (10_state.md R27); numbers above 6 are no register. -/
def registerValue (k : Nat) (s : State) : Option Word :=
  match k with
  | 0 => some s.res
  | 1 => some (statusWord s.status)
  | 2 => some (zext s.deg)
  | 3 => some (natWord s.cw.length)
  | 4 => some (natWord s.tx.length)
  | 5 => some (natWord s.bb.length)
  | 6 => some (natWord s.seg.length)
  | _ => none

end Sys2Proof.Machine
end

