-- ==== Sys2Proof/Machine/BitBuffer.lean ====
section
/-! DEFINITION. The bit buffer and the text buffer (42_bitbuf_segments.md R130 to R135): BB.CLR, BB.APP, BB.RD, TX.CLR,
TX.PUSH. -/

namespace Sys2Proof.Machine

/-- `bb_append(S, n, v)` (42 R130): the `n` bits of `v`, most significant first, behind `S`. R130 gives it for `v < 2^n` only, and
every command tests that first; for a larger `v` this function appends the low `n` bits (DESIGN CHOICE, log entry 13). -/
def bbAppend (S : List Bool) (n v : Nat) : List Bool := S ++ bitsOf n v

/-- Replace `BB` and answer its new length: how `BB.APP` and the assembler commands end. -/
def endWithBb (bits : List Bool) (s : State) : Result :=
  ok (natWord bits.length) (setBb bits s)

/-- `BB.CLR` (42 R131). -/
def execBbClr (s : State) : Result := ok 0 (setBb [] s)

/-- `BB.APP n, v` (42 R132): a value that does not fit is refused, not truncated, and an overflow appends nothing. -/
def execBbApp (n : BitVec 5) (v : BitVec 16) (s : State) : Result :=
  if 16 < n.toNat then fail .badOperand s
  else if 2 ^ n.toNat ≤ v.toNat then fail .badOperand s
  else if Config.bbMax < s.bb.length + n.toNat then fail .overflow s
  else endWithBb (bbAppend s.bb n.toNat v.toNat) s

/-- `BB.RD i` (42 R133). -/
def execBbRd (i : BitVec 16) (s : State) : Result := readAt s.bb i.toNat bitWord s

/-- `TX.CLR` (42 R134). -/
def execTxClr (s : State) : Result := ok 0 (setTx [] s)

/-- `TX.PUSH c` (42 R135). -/
def execTxPush (c : BitVec 8) (s : State) : Result :=
  if s.tx.length = Config.txMax then fail .overflow s
  else ok (natWord (s.tx.length + 1)) (setTx (s.tx ++ [c]) s)

end Sys2Proof.Machine
end

