-- ==== Sys2Proof/Machine/Segments.lean ====
section
/-! DEFINITION. The segment builders (42_bitbuf_segments.md R136 to R146): SG.CLR, SG.NUM, SG.ALN, SG.BYT, SG.RD. -/

namespace Sys2Proof.Machine

/-- The mode indicator (30_encoding.md R82). -/
def modeIndicator : Mode → BitVec 4
  | .numeric => 0b0001
  | .alphanumeric => 0b0010
  | .byte => 0b0100
  | .kanji => 0b1000

/-! ## Numeric -/

/-- Numeric membership (42 R137): ASCII `0` to `9`. -/
def isDigit (c : Byte) : Bool := 0x30 ≤ c.toNat && c.toNat ≤ 0x39

/-- The value of a digit code. -/
def digitValue (c : Byte) : Nat := c.toNat - 0x30

/-- The payload bits of `seg_num` (42 R136): groups of three digits in 10 bits, a remainder of two in 7, of one in 4, each the
decimal value of the group. -/
def numericBits : List Byte → List Bool
  | a :: b :: c :: rest =>
    bitsOf 10 (100 * digitValue a + 10 * digitValue b + digitValue c) ++ numericBits rest
  | [a, b] => bitsOf 7 (10 * digitValue a + digitValue b)
  | [a] => bitsOf 4 (digitValue a)
  | [] => []

/-- `seg_num(t)` (42 R136); on a text with another byte, which `build` refuses first, see log entry 13. -/
def segNum (t : List Byte) : Segment := { mode := .numeric, count := t.length, bits := numericBits t }

/-! ## Alphanumeric -/

/-- The table `ALNUM` (10_state.md R37): `0-9A-Z $%*+-./:` as ASCII codes. -/
def alnumTable : List Byte :=
  [0x30, 0x31, 0x32, 0x33, 0x34, 0x35, 0x36, 0x37, 0x38, 0x39] ++
  [0x41, 0x42, 0x43, 0x44, 0x45, 0x46, 0x47, 0x48, 0x49, 0x4A, 0x4B, 0x4C, 0x4D] ++
  [0x4E, 0x4F, 0x50, 0x51, 0x52, 0x53, 0x54, 0x55, 0x56, 0x57, 0x58, 0x59, 0x5A] ++
  [0x20, 0x24, 0x25, 0x2A, 0x2B, 0x2D, 0x2E, 0x2F, 0x3A]

/-- Alphanumeric membership, the document's `isAlphanumericData` on one byte (42 R139). -/
def isAlnum (c : Byte) : Bool := alnumTable.contains c

/-- The value of a character: its position in `ALNUM` (R37). -/
def alnumValue (c : Byte) : Nat := alnumTable.idxOf c

/-- The payload bits of `seg_aln` (42 R138): pairs in 11 bits, an odd trailing character in 6. -/
def alnumBits : List Byte → List Bool
  | a :: b :: rest => bitsOf 11 (alnumValue a * 45 + alnumValue b) ++ alnumBits rest
  | [a] => bitsOf 6 (alnumValue a)
  | [] => []

/-- `seg_aln(t)` (42 R138); on a text with another byte, which `build` refuses first, see log entry 13. -/
def segAln (t : List Byte) : Segment := { mode := .alphanumeric, count := t.length, bits := alnumBits t }

/-! ## Byte -/

/-- The payload bits of `seg_byt` (42 R140): each byte in 8 bits, verbatim. -/
def byteBits (t : List Byte) : List Bool := t.flatMap fun c => bitsOf 8 c.toNat

/-- `seg_byt(t)` (42 R140); on the empty text, which `build` refuses first, see log entry 13. -/
def segByt (t : List Byte) : Segment := { mode := .byte, count := t.length, bits := byteBits t }

/-! ## Commands -/

/-- The sum of `len(SEG[i].bits)` over a segment list (10_state.md R33). -/
def payloadBits (L : List Segment) : Nat := (L.map fun r => r.bits.length).sum

/-- `build(f, charset_ok, empty_ok)` (42 R141), its tests in the order the rule gives them. -/
def build (f : List Byte → Segment) (charsetOk : Byte → Bool) (emptyOk : Bool) (s : State) : Result :=
  if s.seg.length = Config.segMax then fail .overflow s
  else if !emptyOk && s.tx.isEmpty then fail .segEmpty s
  else if !s.tx.all charsetOk then fail .segCharset s
  else if Config.bbMax < payloadBits s.seg + (f s.tx).bits.length then fail .overflow s
  else ok (natWord (f s.tx).bits.length) (setSeg (s.seg ++ [f s.tx]) s)

/-- `SG.CLR` (42 R142). -/
def execSgClr (s : State) : Result := ok 0 (setSeg [] s)

/-- `SG.NUM` (42 R143). -/
def execSgNum (s : State) : Result := build segNum isDigit true s

/-- `SG.ALN` (42 R144). -/
def execSgAln (s : State) : Result := build segAln isAlnum true s

/-- `SG.BYT` (42 R145): any byte is a member, empty input is refused. -/
def execSgByt (s : State) : Result := build segByt (fun _ => true) false s

/-- Field `k` of a segment record (42 R146). -/
def segmentField (k : Nat) (r : Segment) : Word :=
  match k with
  | 0 => zext (modeIndicator r.mode)
  | 1 => natWord r.count
  | _ => natWord r.bits.length

/-- `SG.RD i, k` (42 R146). -/
def execSgRd (i : BitVec 16) (k : BitVec 2) (s : State) : Result :=
  if k.toNat = 3 then fail .badOperand s
  else readAt s.seg i.toNat (segmentField k.toNat) s

end Sys2Proof.Machine
end

