-- ==== Sys2Proof/Machine/Assembler.lean ====
section
/-! DEFINITION. The assembler packing unit (44_assembler.md): SG.TOT, AS.CAT, AS.TERM, AS.ALIGN, AS.PAD, AS.PACK, and the
steps together (R200). The data capacity `cap` is an operand of the host; the block holds no capacity table (R190). -/

namespace Sys2Proof.Machine

/-! ## Widths, totals, concatenation -/

/-- `ccbits(mode, ver)` (44 R191): the width of the character-count field in the version's tier. R191 defines it for versions 1 to
40 only, and every command tests that first; below and above, this function takes the nearest tier (DESIGN CHOICE, log entry
13). -/
def ccBits (m : Mode) (ver : Nat) : Nat :=
  match m with
  | .numeric => if ver ≤ 9 then 10 else if ver ≤ 26 then 12 else 14
  | .alphanumeric => if ver ≤ 9 then 9 else if ver ≤ 26 then 11 else 13
  | .byte => if ver ≤ 9 then 8 else 16
  | .kanji => if ver ≤ 9 then 8 else if ver ≤ 26 then 10 else 12

/-- `seg_total(L, ver)` (44 R192). -/
def segTotal (L : List Segment) (ver : Nat) : Nat :=
  (L.map fun r => 4 + ccBits r.mode ver + r.bits.length).sum

/-- Every count fits its count field at this version (44 R192). -/
def countsFit (L : List Segment) (ver : Nat) : Bool :=
  L.all fun r => r.count < 2 ^ ccBits r.mode ver

/-- One segment in the bit stream (30_encoding.md R83): mode indicator, character count, payload. -/
def segmentStream (ver : Nat) (r : Segment) : List Bool :=
  bbAppend (bbAppend [] 4 (modeIndicator r.mode).toNat) (ccBits r.mode ver) r.count ++ r.bits

/-- `as_cat(L, ver)` (44 R193). For a list with a count that does not fit its field it is outside R130, and keeps the count's low
bits (DESIGN CHOICE, log entry 13); `AS.CAT` refuses such a list with `CAPACITY` and never calls it. -/
def asCat (L : List Segment) (ver : Nat) : List Bool := L.flatMap (segmentStream ver)

/-! ## Terminator, alignment, padding, packing -/

/-- The number of terminator bits for `len` bits in `cap` codewords (44 R196). -/
def terminatorLength (len cap : Nat) : Nat := min 4 (8 * cap - len)

/-- The number of zero bits to the next byte boundary (44 R197). -/
def alignLength (len : Nat) : Nat := (8 - len % 8) % 8

/-- `n` pad codewords as bits, 0xEC and 0x11 in turn, 0xEC first (30 R88, 44 R198). -/
def padBits : Nat → List Bool
  | 0 => []
  | 1 => bitsOf 8 0xEC
  | n + 2 => bitsOf 8 0xEC ++ (bitsOf 8 0x11 ++ padBits n)

/-- Pack a whole bit sequence into codewords (44 R199, 20_memory.md R53). -/
def packAll (bs : List Bool) : List Byte := packBytes (bs.length / 8) bs

/-- `assemble(L, ver, cap)` (44 R200): steps 3 to 7 as one function; `none` is its capacity failure, the comparison of R200 alone.
On a list with a count that does not fit its field, where the spec leaves `as_cat` open (91 N26), it answers codewords with the
count's low bits (DESIGN CHOICE, log entry 13); no command calls it, and no statement speaks of it on such a list. -/
def assemble (L : List Segment) (ver cap : Nat) : Option (List Byte) :=
  let S := asCat L ver
  if 8 * cap < S.length then none
  else
    let S := S ++ List.replicate (terminatorLength S.length cap) false
    let S := S ++ List.replicate (alignLength S.length) false
    let S := S ++ padBits ((8 * cap - S.length) / 8)
    some (packAll S)

/-! ## Commands -/

/-- The range test on a version operand (44 R194, R195). -/
def versionBad (ver : BitVec 8) : Bool := ver.toNat < 1 || 40 < ver.toNat

/-- `SG.TOT ver` (44 R194). -/
def execSgTot (ver : BitVec 8) (s : State) : Result :=
  if versionBad ver then fail .badOperand s
  else if !countsFit s.seg ver.toNat then fail .capacity s
  else ok (natWord (segTotal s.seg ver.toNat)) s

/-- `AS.CAT ver` (44 R195): replaces `BB`. -/
def execAsCat (ver : BitVec 8) (s : State) : Result :=
  if versionBad ver then fail .badOperand s
  else if Config.bbMax < segTotal s.seg ver.toNat then fail .overflow s
  else if !countsFit s.seg ver.toNat then fail .capacity s
  else endWithBb (asCat s.seg ver.toNat) s

/-- `AS.TERM cap` (44 R196). -/
def execAsTerm (cap : BitVec 16) (s : State) : Result :=
  if Config.bbMax < 8 * cap.toNat then fail .badOperand s
  else if 8 * cap.toNat < s.bb.length then fail .capacity s
  else endWithBb (s.bb ++ List.replicate (terminatorLength s.bb.length cap.toNat) false) s

/-- `AS.ALIGN` (44 R197). -/
def execAsAlign (s : State) : Result :=
  endWithBb (s.bb ++ List.replicate (alignLength s.bb.length) false) s

/-- `AS.PAD cap` (44 R198). -/
def execAsPad (cap : BitVec 16) (s : State) : Result :=
  if Config.bbMax < 8 * cap.toNat then fail .badOperand s
  else if s.bb.length % 8 ≠ 0 then fail .badState s
  else if 8 * cap.toNat < s.bb.length then fail .capacity s
  else endWithBb (s.bb ++ padBits ((8 * cap.toNat - s.bb.length) / 8)) s

/-- `AS.PACK` (44 R199): replaces `CW`, leaves `BB`. -/
def execAsPack (s : State) : Result :=
  if s.bb.length % 8 ≠ 0 then fail .badState s
  else if Config.cwMax < s.bb.length / 8 then fail .overflow s
  else ok (natWord (s.bb.length / 8)) (setCw (packAll s.bb) s)

end Sys2Proof.Machine
end

