-- ==== Sys2Proof/Machine/Gf.lean ====
section
/-! DEFINITION. The Galois-field unit (41_gf.md): GF(2^8) modulo 0x11D and GF(2^4) modulo 0x13, their exp and log tables
(10_state.md R35, R36), the field record of 46_bch.md R234, and the commands GF8.MUL, GF8.EXP, GF8.LOG, GF4.MUL, GF4.EXP,
GF4.LOG. Both fields add by exclusive-or (R111, R118). -/

namespace Sys2Proof.Machine

/-! ## GF(2^8) -/

/-- Doubling: shift left, dropping the bit shifted out, and reduce on carry by the low byte of 0x11D (41 R110). -/
def gf8Double (z : Byte) : Byte :=
  if z.getLsbD 7 then (z <<< 1) ^^^ 0x1D else z <<< 1

/-- One of the eight iterations of R110, for multiplier bit `i`. -/
def gf8MulStep (a b : Byte) (z : Byte) (i : Nat) : Byte :=
  if b.getLsbD i then gf8Double z ^^^ a else gf8Double z

/-- `gf8_mul(a, b)` (R110): double and reduce, multiplier bits from the most significant down. -/
def gf8Mul (a b : Byte) : Byte :=
  [7, 6, 5, 4, 3, 2, 1, 0].foldl (gf8MulStep a b) 0

/-- The table `exp8` (10 R35). -/
def exp8Table : List Byte :=
  [0x01, 0x02, 0x04, 0x08, 0x10, 0x20, 0x40, 0x80, 0x1D, 0x3A, 0x74, 0xE8, 0xCD, 0x87, 0x13, 0x26] ++
  [0x4C, 0x98, 0x2D, 0x5A, 0xB4, 0x75, 0xEA, 0xC9, 0x8F, 0x03, 0x06, 0x0C, 0x18, 0x30, 0x60, 0xC0] ++
  [0x9D, 0x27, 0x4E, 0x9C, 0x25, 0x4A, 0x94, 0x35, 0x6A, 0xD4, 0xB5, 0x77, 0xEE, 0xC1, 0x9F, 0x23] ++
  [0x46, 0x8C, 0x05, 0x0A, 0x14, 0x28, 0x50, 0xA0, 0x5D, 0xBA, 0x69, 0xD2, 0xB9, 0x6F, 0xDE, 0xA1] ++
  [0x5F, 0xBE, 0x61, 0xC2, 0x99, 0x2F, 0x5E, 0xBC, 0x65, 0xCA, 0x89, 0x0F, 0x1E, 0x3C, 0x78, 0xF0] ++
  [0xFD, 0xE7, 0xD3, 0xBB, 0x6B, 0xD6, 0xB1, 0x7F, 0xFE, 0xE1, 0xDF, 0xA3, 0x5B, 0xB6, 0x71, 0xE2] ++
  [0xD9, 0xAF, 0x43, 0x86, 0x11, 0x22, 0x44, 0x88, 0x0D, 0x1A, 0x34, 0x68, 0xD0, 0xBD, 0x67, 0xCE] ++
  [0x81, 0x1F, 0x3E, 0x7C, 0xF8, 0xED, 0xC7, 0x93, 0x3B, 0x76, 0xEC, 0xC5, 0x97, 0x33, 0x66, 0xCC] ++
  [0x85, 0x17, 0x2E, 0x5C, 0xB8, 0x6D, 0xDA, 0xA9, 0x4F, 0x9E, 0x21, 0x42, 0x84, 0x15, 0x2A, 0x54] ++
  [0xA8, 0x4D, 0x9A, 0x29, 0x52, 0xA4, 0x55, 0xAA, 0x49, 0x92, 0x39, 0x72, 0xE4, 0xD5, 0xB7, 0x73] ++
  [0xE6, 0xD1, 0xBF, 0x63, 0xC6, 0x91, 0x3F, 0x7E, 0xFC, 0xE5, 0xD7, 0xB3, 0x7B, 0xF6, 0xF1, 0xFF] ++
  [0xE3, 0xDB, 0xAB, 0x4B, 0x96, 0x31, 0x62, 0xC4, 0x95, 0x37, 0x6E, 0xDC, 0xA5, 0x57, 0xAE, 0x41] ++
  [0x82, 0x19, 0x32, 0x64, 0xC8, 0x8D, 0x07, 0x0E, 0x1C, 0x38, 0x70, 0xE0, 0xDD, 0xA7, 0x53, 0xA6] ++
  [0x51, 0xA2, 0x59, 0xB2, 0x79, 0xF2, 0xF9, 0xEF, 0xC3, 0x9B, 0x2B, 0x56, 0xAC, 0x45, 0x8A, 0x09] ++
  [0x12, 0x24, 0x48, 0x90, 0x3D, 0x7A, 0xF4, 0xF5, 0xF7, 0xF3, 0xFB, 0xEB, 0xCB, 0x8B, 0x0B, 0x16] ++
  [0x2C, 0x58, 0xB0, 0x7D, 0xFA, 0xE9, 0xCF, 0x83, 0x1B, 0x36, 0x6C, 0xD8, 0xAD, 0x47, 0x8E, 0x01]

/-- The table `log8` (10 R35); entry 0 is a placeholder, since zero has no logarithm. -/
def log8Table : List Nat :=
  [0x00, 0x00, 0x01, 0x19, 0x02, 0x32, 0x1A, 0xC6, 0x03, 0xDF, 0x33, 0xEE, 0x1B, 0x68, 0xC7, 0x4B] ++
  [0x04, 0x64, 0xE0, 0x0E, 0x34, 0x8D, 0xEF, 0x81, 0x1C, 0xC1, 0x69, 0xF8, 0xC8, 0x08, 0x4C, 0x71] ++
  [0x05, 0x8A, 0x65, 0x2F, 0xE1, 0x24, 0x0F, 0x21, 0x35, 0x93, 0x8E, 0xDA, 0xF0, 0x12, 0x82, 0x45] ++
  [0x1D, 0xB5, 0xC2, 0x7D, 0x6A, 0x27, 0xF9, 0xB9, 0xC9, 0x9A, 0x09, 0x78, 0x4D, 0xE4, 0x72, 0xA6] ++
  [0x06, 0xBF, 0x8B, 0x62, 0x66, 0xDD, 0x30, 0xFD, 0xE2, 0x98, 0x25, 0xB3, 0x10, 0x91, 0x22, 0x88] ++
  [0x36, 0xD0, 0x94, 0xCE, 0x8F, 0x96, 0xDB, 0xBD, 0xF1, 0xD2, 0x13, 0x5C, 0x83, 0x38, 0x46, 0x40] ++
  [0x1E, 0x42, 0xB6, 0xA3, 0xC3, 0x48, 0x7E, 0x6E, 0x6B, 0x3A, 0x28, 0x54, 0xFA, 0x85, 0xBA, 0x3D] ++
  [0xCA, 0x5E, 0x9B, 0x9F, 0x0A, 0x15, 0x79, 0x2B, 0x4E, 0xD4, 0xE5, 0xAC, 0x73, 0xF3, 0xA7, 0x57] ++
  [0x07, 0x70, 0xC0, 0xF7, 0x8C, 0x80, 0x63, 0x0D, 0x67, 0x4A, 0xDE, 0xED, 0x31, 0xC5, 0xFE, 0x18] ++
  [0xE3, 0xA5, 0x99, 0x77, 0x26, 0xB8, 0xB4, 0x7C, 0x11, 0x44, 0x92, 0xD9, 0x23, 0x20, 0x89, 0x2E] ++
  [0x37, 0x3F, 0xD1, 0x5B, 0x95, 0xBC, 0xCF, 0xCD, 0x90, 0x87, 0x97, 0xB2, 0xDC, 0xFC, 0xBE, 0x61] ++
  [0xF2, 0x56, 0xD3, 0xAB, 0x14, 0x2A, 0x5D, 0x9E, 0x84, 0x3C, 0x39, 0x53, 0x47, 0x6D, 0x41, 0xA2] ++
  [0x1F, 0x2D, 0x43, 0xD8, 0xB7, 0x7B, 0xA4, 0x76, 0xC4, 0x17, 0x49, 0xEC, 0x7F, 0x0C, 0x6F, 0xF6] ++
  [0x6C, 0xA1, 0x3B, 0x52, 0x29, 0x9D, 0x55, 0xAA, 0xFB, 0x60, 0x86, 0xB1, 0xBB, 0xCC, 0x3E, 0x5A] ++
  [0xCB, 0x59, 0x5F, 0xB0, 0x9C, 0xA9, 0xA0, 0x51, 0x0B, 0xF5, 0x16, 0xEB, 0x7A, 0x75, 0x2C, 0xD7] ++
  [0x4F, 0xAE, 0xD5, 0xE9, 0xE6, 0xE7, 0xAD, 0xE8, 0x74, 0xD6, 0xF4, 0xEA, 0xA8, 0x50, 0x58, 0xAF]

/-- `exp8[i]` for `i` in 0..255 (R35); 0 beyond the table, where nothing indexes it (log entry 13). -/
def exp8 (i : Nat) : Byte := exp8Table.getD i 0

/-- `log8[a]` (R35). -/
def log8 (a : Byte) : Nat := log8Table.getD a.toNat 0

/-! ## GF(2^4) -/

/-- The table `exp4` (10 R36). -/
def exp4Table : List Nibble :=
  [0x1, 0x2, 0x4, 0x8, 0x3, 0x6, 0xC, 0xB, 0x5, 0xA, 0x7, 0xE, 0xF, 0xD, 0x9, 0x1]

/-- The table `log4` (10 R36); entry 0 is a placeholder. -/
def log4Table : List Nat :=
  [0, 0, 1, 4, 2, 8, 5, 10, 3, 14, 9, 7, 6, 13, 11, 12]

/-- `exp4[i]` for `i` in 0..15 (R36); 0 beyond the table, where nothing indexes it (log entry 13). -/
def exp4 (i : Nat) : Nibble := exp4Table.getD i 0

/-- `log4[a]` (R36). -/
def log4 (a : Nibble) : Nat := log4Table.getD a.toNat 0

/-- A field record `F = (p, exp, log)` (46_bch.md R234). -/
structure FieldRec (w : Nat) where
  p : Nat
  exp : Nat → BitVec w
  log : BitVec w → Nat

/-- `GF16 = (15, exp4, log4)`, the field of the format code (46 R234). -/
def gf16 : FieldRec 4 := { p := 15, exp := exp4, log := log4 }

/-- `GF256 = (255, exp8, log8)`, with which the surrounding decoder uses the same routines (46 R234). -/
def gf256 : FieldRec 8 := { p := 255, exp := exp8, log := log8 }

/-- `mulF(a, b)` (46 R234): the product through the tables, with the test for zero. -/
def mulF {w : Nat} (F : FieldRec w) (a b : BitVec w) : BitVec w :=
  if a = 0 ∨ b = 0 then 0 else F.exp ((F.log a + F.log b) % F.p)

/-- `gf4_mul(a, b)` (41 R117), which is `mulF` over `GF16` (46 R234). -/
def gf4Mul (a b : Nibble) : Nibble := mulF gf16 a b

/-! ## Commands -/

/-- `GF8.MUL a, b` (41 R114). -/
def execGf8Mul (a b : BitVec 8) (s : State) : Result := ok (zext (gf8Mul a b)) s

/-- `GF8.EXP i` (41 R115). -/
def execGf8Exp (i : BitVec 8) (s : State) : Result := ok (zext (exp8 i.toNat)) s

/-- `GF8.LOG a` (41 R116); `a = 0` returns the placeholder 0 and does not fail. -/
def execGf8Log (a : BitVec 8) (s : State) : Result := ok (natWord (log8 a)) s

/-- `GF4.MUL a, b` (41 R119). -/
def execGf4Mul (a b : BitVec 8) (s : State) : Result :=
  if 15 < a.toNat ∨ 15 < b.toNat then fail .badOperand s
  else ok (zext (gf4Mul (a.setWidth 4) (b.setWidth 4))) s

/-- `GF4.EXP i` (41 R120). -/
def execGf4Exp (i : BitVec 8) (s : State) : Result :=
  if 15 < i.toNat then fail .badOperand s else ok (zext (exp4 i.toNat)) s

/-- `GF4.LOG a` (41 R121). -/
def execGf4Log (a : BitVec 8) (s : State) : Result :=
  if 15 < a.toNat then fail .badOperand s else ok (natWord (log4 (a.setWidth 4))) s

end Sys2Proof.Machine
end

