-- ==== Sys2Proof/Machine/Bch.lean ====
section
/-! DEFINITION. The BCH format and version unit (46_bch.md): the format code BCH(15,5) and the version code BCH(18,6) with
their nearest-match decoders, the syndrome path for the format field, and the commands FM.ENC, FM.DEC, FM.SYN, FM.COR,
VR.ENC, VR.DEC, SY.RD, LC.RD, LC.EVAL. The syndrome routines stand in the spec from general knowledge (R232; PRESUMED, log
entry 6). -/

namespace Sys2Proof.Machine

/-- The number of 1 bits (00_scope.md R10). -/
def popcount {n : Nat} (v : BitVec n) : Nat := (List.range n).countP v.getLsbD

/-- The decoder "unique minimal-distance match with distance < threshold" (46 R223, R228) over a list of reference values. -/
def nearestMatch (threshold : Nat) (dist : Nat → Nat) (refs : List Nat) : Option Nat :=
  match (refs.map dist).min? with
  | none => none
  | some dmin =>
    if dmin < threshold then
      match refs.filter (fun r => dist r = dmin) with
      | [r] => some r
      | _ => none
    else none

/-! ## The format code -/

/-- One shift-and-subtract step with `G15` = 0x537 on the 11-bit remainder (46 R221). -/
def fmtStep (rem : BitVec 11) : BitVec 11 :=
  if rem.getLsbD 9 then (rem <<< 1) ^^^ 0x537 else rem <<< 1

/-- `fmt_parity(f)` (46 R221). -/
def fmtParity (f : BitVec 5) : BitVec 10 :=
  (Nat.iterate fmtStep 10 (f.setWidth 11)).setWidth 10

/-- The mask `M15` = 0x5412 (46 R220). -/
def fmtMask : BitVec 15 := 0x5412

/-- `fmt_enc(f)` (46 R222): data above parity, then the mask. -/
def fmtEnc (f : BitVec 5) : BitVec 15 := (f ++ fmtParity f) ^^^ fmtMask

/-- `fmt_dec(w)` (46 R223): the reference words are the 32 masked format words. -/
def fmtDec (w : BitVec 15) : Option Nat :=
  nearestMatch 4 (fun f => popcount (w ^^^ fmtEnc (BitVec.ofNat 5 f))) (List.range 32)

/-! ## The version code -/

/-- One shift-and-subtract step with `G18` = 0x1F25 on the 13-bit remainder (46 R227). -/
def verStep (rem : BitVec 13) : BitVec 13 :=
  if rem.getLsbD 11 then (rem <<< 1) ^^^ 0x1F25 else rem <<< 1

/-- `ver_parity(v)` (46 R227). -/
def verParity (v : BitVec 6) : BitVec 12 :=
  (Nat.iterate verStep 12 (v.setWidth 13)).setWidth 12

/-- `ver_enc(v)` (46 R227): data above parity, no mask. -/
def verEnc (v : BitVec 6) : BitVec 18 := v ++ verParity v

/-- `ver_dec(w)` (46 R228): the reference words are those of versions 1 to 40. -/
def verDec (w : BitVec 18) : Option Nat :=
  nearestMatch 5 (fun v => popcount (w ^^^ verEnc (BitVec.ofNat 6 v))) (List.range' 1 40)

/-! ## The syndrome path -/

/-- Syndrome `S(k)` of an unmasked word (46 R233): `u(x)` at `α^k`. -/
def syndrome (u : BitVec 15) (k : Nat) : Nibble :=
  (List.range 15).foldl (fun s j => if u.getLsbD j then s ^^^ exp4 (k * j % 15) else s) 0

/-- The array of `fmt_syn(u)` (46 R233): element `i` is S(i+1). -/
def fmtSyn (u : BitVec 15) : Vector Nibble 6 :=
  #v[syndrome u 1, syndrome u 2, syndrome u 3, syndrome u 4, syndrome u 5, syndrome u 6]

/-- The flag of `fmt_syn(u)` (46 R233): some syndrome is not 0. -/
def synNonzero (s : Vector Nibble 6) : Bool := s.toList.any fun x => x ≠ 0

/-- A polynomial array of the syndrome path (46 R236): `MAX_POLY` elements, element `i` the coefficient of `x^i`. The routines
work on lists of that length; `SIGMA` stores one (`locatorArray`). -/
abbrev Poly (w : Nat) := List (BitVec w)

/-- The constant polynomial 1. -/
def polyOne {w : Nat} : Poly w := 1 :: List.replicate (Config.maxPoly - 1) 0

/-- `poly_add(dst, src, c, shift, F)` (46 R236): `dst + c·x^shift·src`, terms that fall outside the array dropped. -/
def polyAdd {w : Nat} (F : FieldRec w) (dst src : Poly w) (c : BitVec w) (shift : Nat) : Poly w :=
  if c = 0 then dst
  else List.zipWith (fun d x => d ^^^ mulF F x c) dst (List.replicate shift 0 ++ src)

/-- One term of `poly_eval` (46 R237): `s[i]·x^i`, with the test for a zero coefficient. -/
def polyTerm {w : Nat} (F : FieldRec w) (x : BitVec w) (c : BitVec w) (i : Nat) : BitVec w :=
  if c = 0 then 0 else F.exp ((F.log c + F.log x * i) % F.p)

/-- `poly_eval(s, x, F)` (46 R237). -/
def polyEval {w : Nat} (F : FieldRec w) (s : Poly w) (x : BitVec w) : BitVec w :=
  if x = 0 then s.headD 0
  else s.zipIdx.foldl (fun sum ci => sum ^^^ polyTerm F x ci.1 ci.2) 0

/-- The variables of `berlekamp_massey` (46 R238). -/
structure BmState (w : Nat) where
  /-- current locator -/
  C : Poly w
  /-- locator at the last length change -/
  B : Poly w
  /-- current register length -/
  L : Nat
  /-- steps since the last length change -/
  m : Nat
  /-- discrepancy at the last length change -/
  b : BitVec w

/-- The discrepancy of step `n` (46 R238); no index leaves its array. -/
def bmDiscrepancy {w : Nat} (F : FieldRec w) (s : List (BitVec w)) (t : BmState w) (n : Nat) : BitVec w :=
  (List.range t.L).foldl
    (fun d j => d ^^^ mulF F (t.C.getD (j + 1) 0) (s.getD (n - (j + 1)) 0)) (s.getD n 0)

/-- Step `n` of `berlekamp_massey` (46 R238). -/
def bmStep {w : Nat} (F : FieldRec w) (s : List (BitVec w)) (t : BmState w) (n : Nat) : BmState w :=
  let d := bmDiscrepancy F s t n
  let mult := F.exp ((F.p - F.log t.b + F.log d) % F.p)
  if d = 0 then { t with m := t.m + 1 }
  else if 2 * t.L ≤ n then
    { C := polyAdd F t.C t.B mult t.m, B := t.C, L := n + 1 - t.L, m := 1, b := d }
  else { t with C := polyAdd F t.C t.B mult t.m, m := t.m + 1 }

/-- `berlekamp_massey(s, N, F)` (46 R238): the error-locator polynomial of the first `N` syndromes. -/
def berlekampMassey {w : Nat} (F : FieldRec w) (s : List (BitVec w)) (N : Nat) : Poly w :=
  ((List.range N).foldl (bmStep F s) { C := polyOne, B := polyOne, L := 0, m := 1, b := 1 }).C

/-- The correction loop of `fmt_cor` (46 R235, R239): bit `i` is flipped when the locator vanishes at `exp4[15 − i]`. -/
def flipRoots (sigma : Poly 4) (u : BitVec 15) : BitVec 15 :=
  (List.range 15).foldl
    (fun u' i => if polyEval gf16 sigma (exp4 (15 - i)) = 0 then u' ^^^ (1#15 <<< i) else u') u

/-- A polynomial array as `SIGMA` stores it (10_state.md R34). -/
def locatorArray (p : Poly 4) : Vector Nibble Config.maxPoly := Vector.ofFn fun i => p.getD i.val 0

/-- `fmt_cor(w)` (46 R239): the corrected unmasked word, the syndromes of the uncorrected one, and the locator. -/
def fmtCor (w : BitVec 15) : Option (BitVec 15 × Vector Nibble 6 × Poly 4) :=
  let u := w ^^^ fmtMask
  let s := fmtSyn u
  let sigma := berlekampMassey gf16 s.toList 6
  let u' := flipRoots sigma u
  if synNonzero (fmtSyn u') then none else some (u', s, sigma)

/-! ## Commands -/

/-- `FM.ENC f` (46 R224). -/
def execFmEnc (f : BitVec 8) (s : State) : Result :=
  if 31 < f.toNat then fail .badOperand s else ok (zext (fmtEnc (f.setWidth 5))) s

/-- `FM.DEC w` (46 R225): `SYN` and `SIGMA` are not touched. -/
def execFmDec (w : BitVec 18) (s : State) : Result :=
  if 2 ^ 15 ≤ w.toNat then fail .badOperand s
  else
    match fmtDec (w.setWidth 15) with
    | some f => ok (natWord f) s
    | none => fail .formatEcc s

/-- `FM.SYN u` (46 R241): the word is taken as given, unmasked. -/
def execFmSyn (u : BitVec 18) (s : State) : Result :=
  if 2 ^ 15 ≤ u.toNat then fail .badOperand s
  else ok (bitWord (synNonzero (fmtSyn (u.setWidth 15)))) (setSyn (fmtSyn (u.setWidth 15)) s)

/-- `FM.COR w` (46 R242): on failure `SYN` and `SIGMA` keep their old values. -/
def execFmCor (w : BitVec 18) (s : State) : Result :=
  if 2 ^ 15 ≤ w.toNat then fail .badOperand s
  else
    match fmtCor (w.setWidth 15) with
    | some (u', syn, sigma) => ok (zext u') (setSigma (locatorArray sigma) (setSyn syn s))
    | none => fail .formatEcc s

/-- `VR.ENC v` (46 R229). -/
def execVrEnc (v : BitVec 8) (s : State) : Result :=
  if v.toNat < 1 ∨ 40 < v.toNat then fail .badOperand s else ok (zext (verEnc (v.setWidth 6))) s

/-- `VR.DEC w` (46 R230): every 18-bit value is legal. -/
def execVrDec (w : BitVec 18) (s : State) : Result :=
  match verDec w with
  | some v => ok (natWord v) s
  | none => fail .versionEcc s

/-- `SY.RD i` (46 R243). -/
def execSyRd (i : BitVec 16) (s : State) : Result :=
  if 5 < i.toNat then fail .badOperand s else readAt s.syn.toList i.toNat zext s

/-- `LC.RD i` (46 R244). -/
def execLcRd (i : BitVec 16) (s : State) : Result :=
  if Config.maxPoly ≤ i.toNat then fail .badOperand s else readAt s.sigma.toList i.toNat zext s

/-- `LC.EVAL x` (46 R245). -/
def execLcEval (x : BitVec 8) (s : State) : Result :=
  if 15 < x.toNat then fail .badOperand s else ok (zext (polyEval gf16 s.sigma.toList (x.setWidth 4))) s

end Sys2Proof.Machine
end

