-- ==== Sys2Proof/Machine/Mask.lean ====
section
/-! DEFINITION. The data-mask predicate unit (45_mask.md): MK.BIT. -/

namespace Sys2Proof.Machine

/-- `mask_fn(m, x, y)` (45 R210, R211), with `x` the column and `y` the row. Row 0 is the document's; rows 1 to 7, and which
of `x`, `y` is the column, are the default of the parameter `MASK_FN` (PRESUMED by the spec, log entry 2). An index above 7, which no operand holds, takes row 7 (log entry 13). -/
def maskFn (m x y : Nat) : Bool :=
  match m with
  | 0 => (x + y) % 2 == 0
  | 1 => y % 2 == 0
  | 2 => x % 3 == 0
  | 3 => (x + y) % 3 == 0
  | 4 => (x / 3 + y / 2) % 2 == 0
  | 5 => x * y % 2 + x * y % 3 == 0
  | 6 => (x * y % 2 + x * y % 3) % 2 == 0
  | _ => ((x + y) % 2 + x * y % 3) % 2 == 0

/-- A data module (1 is dark) with the mask applied: the module XOR the predicate (45 R210, R213). Host work, not a command. -/
def maskModule (m x y : Nat) (dark : Bool) : Bool := dark ^^ maskFn m x y

/-- `MK.BIT m, x, y` (45 R212). -/
def execMkBit (m : BitVec 3) (x y : BitVec 8) (s : State) : Result :=
  ok (bitWord (maskFn m.toNat x.toNat y.toNat)) s

end Sys2Proof.Machine
end

