-- ==== Sys2Proof/Machine/ReedSolomon.lean ====
section
/-! DEFINITION. The Reed-Solomon encoder (43_rs_encoder.md): the generator polynomial, the divider, and the commands CF.GEN,
CF.SET, CF.WR, CF.RD, RM.INIT, RM.STEP, RM.RD, RS.REM, CW.CLR, CW.PUSH, CW.RD. Polynomials are byte lists, highest power
first; addition and subtraction are exclusive-or (41_gf.md R111). -/

namespace Sys2Proof.Machine

/-! ## The generator polynomial -/

/-- One pass of the inner loop of `rs_gen` (43 R161): slot `j` becomes `c[j]·root` plus the old slot `j + 1`, where there is
one. -/
def rsGenPass (root : Byte) (c : List Byte) : List Byte :=
  List.zipWith (fun x next => gf8Mul x root ^^^ next) c (c.tail ++ [0])

/-- The outer loop of `rs_gen` (43 R161): `n` passes, the root doubled after each. -/
def rsGenLoop : Nat → Byte → List Byte → List Byte
  | 0, _, c => c
  | n + 1, root, c => rsGenLoop n (gf8Mul root 2) (rsGenPass root c)

/-- `rs_gen(d)` (43 R160, R161): the `d` coefficients of the degree-`d` generator, leading 1 dropped. For
`d = 0`, which `CF.GEN` refuses, see log entry 13. -/
def rsGen (d : Nat) : List Byte :=
  rsGenLoop d 1 (List.replicate (d - 1) 0 ++ [1])

/-! ## The divider -/

/-- `rs_step(W, C, b)` (43 R162): the new window and the feedback factor. The window shifts toward the front and a zero
enters at the back; the old front is consumed into the factor. A window of length 0 has no front: no reachable state
steps one (log entry 11). -/
def rsStep (W C : List Byte) (b : Byte) : List Byte × Byte :=
  let factor := b ^^^ W.headD 0
  (List.zipWith (fun w c => w ^^^ gf8Mul c factor) (W.tail ++ [0]) C, factor)

/-- `rs_rem(D, C)` (43 R163): the fold of `rs_step` over the data from a zero window. -/
def rsRem (D C : List Byte) : List Byte :=
  D.foldl (fun W b => (rsStep W C b).1) (List.replicate C.length 0)

/-! ## Coefficient commands -/

/-- Load the divisor that `c` gives for degree `d`, or refuse a degree outside 1..`DEG_MAX`: the common part of `CF.GEN` and
`CF.SET` (43 R166, R167). -/
def loadDegree (c : Nat → List Byte) (d : BitVec 8) (s : State) : Result :=
  if d.toNat = 0 ∨ Config.degMax < d.toNat then fail .badOperand s
  else ok (zext d) (loadDivisor d (c d.toNat) s)

/-- `CF.GEN d` (43 R166). -/
def execCfGen (d : BitVec 8) (s : State) : Result := loadDegree rsGen d s

/-- `CF.SET d` (43 R167). -/
def execCfSet (d : BitVec 8) (s : State) : Result := loadDegree (fun n => List.replicate n 0) d s

/-- `CF.WR i, v` (43 R168): the window is not cleared (70 R354). In a state outside R41 whose `COEF` is shorter than `DEG`, an
index between the two stores nothing and succeeds: the spec says nothing there (DEDUCED, log entry 11). -/
def execCfWr (i : BitVec 16) (v : BitVec 8) (s : State) : Result :=
  if s.deg.toNat ≤ i.toNat then fail .badOperand s
  else ok (zext v) (setCoef (s.coef.set i.toNat v) s)

/-- `CF.RD i` (43 R169). -/
def execCfRd (i : BitVec 16) (s : State) : Result :=
  if s.deg.toNat ≤ i.toNat then fail .badOperand s
  else readAt s.coef i.toNat zext s

/-! ## Window commands -/

/-- `RM.INIT` (43 R170). -/
def execRmInit (s : State) : Result :=
  if s.deg = 0 then fail .badState s
  else ok 0 (setRem (List.replicate s.deg.toNat 0) s)

/-- `RM.STEP b` (43 R171): `RES` is the feedback factor. -/
def execRmStep (b : BitVec 8) (s : State) : Result :=
  if s.deg = 0 then fail .badState s
  else ok (zext (rsStep s.rem s.coef b).2) (setRem (rsStep s.rem s.coef b).1 s)

/-- `RM.RD i` (43 R172). -/
def execRmRd (i : BitVec 16) (s : State) : Result :=
  if s.deg.toNat ≤ i.toNat then fail .badOperand s
  else readAt s.rem i.toNat zext s

/-- `RS.REM off, len` (43 R173): the slice test comes before the divisor test (60 R325). -/
def execRsRem (off len : BitVec 12) (s : State) : Result :=
  if s.cw.length < off.toNat + len.toNat then fail .badOperand s
  else if s.deg = 0 then fail .badState s
  else ok (zext s.deg) (setRem (rsRem ((s.cw.drop off.toNat).take len.toNat) s.coef) s)

/-! ## Codeword buffer commands -/

/-- `CW.CLR` (43 R174). -/
def execCwClr (s : State) : Result := ok 0 (setCw [] s)

/-- `CW.PUSH b` (43 R175). -/
def execCwPush (b : BitVec 8) (s : State) : Result :=
  if s.cw.length = Config.cwMax then fail .overflow s
  else ok (natWord (s.cw.length + 1)) (setCw (s.cw ++ [b]) s)

/-- `CW.RD i` (43 R176). -/
def execCwRd (i : BitVec 16) (s : State) : Result := readAt s.cw i.toNat zext s

end Sys2Proof.Machine
end

