-- ==== Sys2Proof/Machine/System.lean ====
section
/-! DEFINITION. The system commands NOP, RST, RG.RD, ST.CLR (40_system.md). -/

namespace Sys2Proof.Machine

/-- `NOP` (40 R100): it does overwrite `RES` and `STATUS.CODE`. -/
def execNop (s : State) : Result := ok 0 s

/-- `RST` (40 R101, 70 R350): every piece of the core's state at its reset value; the response is (0, 0). -/
def execRst (s : State) : Result := ok 0 (resetCore s)

/-- `RG.RD k` (40 R102): the register is read as it stood before this command. -/
def execRgRd (k : BitVec 8) (s : State) : Result :=
  match registerValue k.toNat s with
  | some v => ok v s
  | none => fail .badOperand s

/-- `ST.CLR` (40 R103). -/
def execStClr (s : State) : Result := ok 0 (setStatus (statusCleared s.status) s)

end Sys2Proof.Machine
end

