-- ==== Sys2Proof/Machine/Dispatch.lean ====
section
/-! DEFINITION. The dispatch: one arm per command of 30_encoding.md R75, each one call of that command's meaning. -/

namespace Sys2Proof.Machine

open Sys2Proof

/-- Execute one decoded command. -/
def exec (i : Instr) (s : State) : Host.Outcome State Fault Refusal :=
  match i with
  | .nop => Sys2Proof.Machine.execNop s
  | .rst => Sys2Proof.Machine.execRst s
  | .rgRd k => Sys2Proof.Machine.execRgRd k s
  | .stClr => Sys2Proof.Machine.execStClr s
  | .gf8Mul a b => Sys2Proof.Machine.execGf8Mul a b s
  | .gf8Exp idx => Sys2Proof.Machine.execGf8Exp idx s
  | .gf8Log a => Sys2Proof.Machine.execGf8Log a s
  | .gf4Mul a b => Sys2Proof.Machine.execGf4Mul a b s
  | .gf4Exp idx => Sys2Proof.Machine.execGf4Exp idx s
  | .gf4Log a => Sys2Proof.Machine.execGf4Log a s
  | .bbClr => Sys2Proof.Machine.execBbClr s
  | .bbApp n v => Sys2Proof.Machine.execBbApp n v s
  | .bbRd idx => Sys2Proof.Machine.execBbRd idx s
  | .txClr => Sys2Proof.Machine.execTxClr s
  | .txPush c => Sys2Proof.Machine.execTxPush c s
  | .sgClr => Sys2Proof.Machine.execSgClr s
  | .sgNum => Sys2Proof.Machine.execSgNum s
  | .sgAln => Sys2Proof.Machine.execSgAln s
  | .sgByt => Sys2Proof.Machine.execSgByt s
  | .sgRd idx k => Sys2Proof.Machine.execSgRd idx k s
  | .cfGen d => Sys2Proof.Machine.execCfGen d s
  | .cfSet d => Sys2Proof.Machine.execCfSet d s
  | .cfWr idx v => Sys2Proof.Machine.execCfWr idx v s
  | .cfRd idx => Sys2Proof.Machine.execCfRd idx s
  | .rmInit => Sys2Proof.Machine.execRmInit s
  | .rmStep b => Sys2Proof.Machine.execRmStep b s
  | .rmRd idx => Sys2Proof.Machine.execRmRd idx s
  | .rsRem off len => Sys2Proof.Machine.execRsRem off len s
  | .cwClr => Sys2Proof.Machine.execCwClr s
  | .cwPush b => Sys2Proof.Machine.execCwPush b s
  | .cwRd idx => Sys2Proof.Machine.execCwRd idx s
  | .sgTot ver => Sys2Proof.Machine.execSgTot ver s
  | .asCat ver => Sys2Proof.Machine.execAsCat ver s
  | .asTerm cap => Sys2Proof.Machine.execAsTerm cap s
  | .asAlign => Sys2Proof.Machine.execAsAlign s
  | .asPad cap => Sys2Proof.Machine.execAsPad cap s
  | .asPack => Sys2Proof.Machine.execAsPack s
  | .mkBit m x y => Sys2Proof.Machine.execMkBit m x y s
  | .fmEnc f => Sys2Proof.Machine.execFmEnc f s
  | .fmDec w => Sys2Proof.Machine.execFmDec w s
  | .fmSyn u => Sys2Proof.Machine.execFmSyn u s
  | .fmCor w => Sys2Proof.Machine.execFmCor w s
  | .vrEnc v => Sys2Proof.Machine.execVrEnc v s
  | .vrDec w => Sys2Proof.Machine.execVrDec w s
  | .syRd idx => Sys2Proof.Machine.execSyRd idx s
  | .lcRd idx => Sys2Proof.Machine.execLcRd idx s
  | .lcEval x => Sys2Proof.Machine.execLcEval x s

end Sys2Proof.Machine
end

