-- ==== Sys2Proof/Machine/Step.lean ====
section
/-! DEFINITION. One step of the machine: the host presents the next word of its command stream, the core executes it
atomically and the stream's index moves on by one, whatever the outcome (10_state.md R22, 20_memory.md R60). The work is
`nextWord`, `execWord` and `afterCommand` below; a word that is no command ends with `ILLEGAL_CMD` (30_encoding.md R74,
R76). -/

namespace Sys2Proof.Machine

open Sys2Proof

/-- The word the host presents next, if it presents one (10 R22). -/
def nextWord (s : State) : Option Word := s.cmds[s.idx]?

/-- Execute one command word (30 R78): steps 1 and 2 are the decoder's, and both end with `ILLEGAL_CMD`. -/
def execWord (c : Word) (s : State) : Host.Outcome State Fault Refusal :=
  match decode c with
  | .ok i => exec i s
  | .error _ => fail .illegalCmd s

/-- What follows every command: the stream's index moves on by one (10 R22). -/
def afterCommand : Host.Outcome State Fault Refusal → Host.Outcome State Fault Refusal
  | .next s => .next (advance s)
  | .fault r => .fault r
  | .refused r => .refused r

/-- One step: the next command word, executed; no word, no step (70 R363, log entry 4). -/
def step (s : State) : Host.Outcome State Fault Refusal :=
  match nextWord s with
  | some c => afterCommand (execWord c s)
  | none => .fault .noCommand

/-- `s` with one word put where `step` takes its next command from: position `idx` of the command stream. A stream that
stops short of `idx` (no reachable one does) is filled up with `NOP` words first. -/
def State.withFetchWord (s : State) (nbits w : Nat) : State :=
  { s with
    cmds := (s.cmds ++ List.replicate (s.idx + 1 - s.cmds.length) 0).set s.idx (BitVec.ofNat 32 (w % 2 ^ nbits)) }

end Sys2Proof.Machine
end

