-- ==== Sys2Proof/Machine/Run.lean ====
section
/-! DEFINITION. What the host sees and sends: the response of a command (30_encoding.md R81), a run of a list of command words
and its record (70_reset_and_hazards.md R363), and the pseudo-instructions (30 R80), which are lists of commands and
nothing to the core. -/

namespace Sys2Proof.Machine

open Sys2Proof

/-- A response (30 R81): outcome code and result. -/
structure Response where
  code : BitVec 8
  res : Word
  deriving DecidableEq, Repr

/-- The response of the most recent command: `STATUS.CODE` and `RES` as it left them (30 R81). -/
def State.response (s : State) : Response := { code := codeNumber s.status.code, res := s.res }

/-- `s` with the host about to send the words `ws` and nothing else. -/
def State.load (ws : List Word) (s : State) : State := { s with cmds := ws, idx := 0 }

/-- The run of a list of command words (70 R363): one step each, whatever the outcomes; the answer is the end state and the
record, one response per word in order. A meaning that does not answer a next state ends the list early; none does. -/
def runWords : List Word → State → State × List Response
  | [], s => (s, [])
  | w :: ws, s =>
    match execWord w s with
    | .next s' => ((runWords ws s').1, s'.response :: (runWords ws s').2)
    | .fault _ => (s, [])
    | .refused _ => (s, [])

/-- The pseudo-instructions of 30 R80. -/
inductive Pseudo where
  | stRd
  | cfDeg
  | cwLen
  | txLen
  | bbLen
  | sgCnt
  /-- `TX.STR "s"`, the string as its character codes -/
  | txStr (cs : List Byte)
  /-- `CW.BYTES b0 b1 …` -/
  | cwBytes (bs : List Byte)
  /-- `RS.ENC d`, with `n` the current `CWLEN`, which the host knows -/
  | rsEnc (d : BitVec 8) (n : BitVec 12)
  | asFin (cap : BitVec 16)
  deriving DecidableEq, Repr

/-- The commands a pseudo-instruction stands for (30 R80). -/
def expand : Pseudo → List Instr
  | .stRd => [.rgRd 1]
  | .cfDeg => [.rgRd 2]
  | .cwLen => [.rgRd 3]
  | .txLen => [.rgRd 4]
  | .bbLen => [.rgRd 5]
  | .sgCnt => [.rgRd 6]
  | .txStr cs => cs.map .txPush
  | .cwBytes bs => bs.map .cwPush
  | .rsEnc d n => [.cfGen d, .rsRem 0 n]
  | .asFin cap => [.asTerm cap, .asAlign, .asPad cap, .asPack]

/-- The run of a pseudo-instruction: each of its commands is issued, a failure of one stopping none (30 R80, 70 R357). -/
def runPseudo (p : Pseudo) (s : State) : State × List Response := runWords ((expand p).map encode) s

end Sys2Proof.Machine
end

