-- ==== Sys2Proof/Safety.lean ====
section
/-! DEFINITION. What counts as a sound state and a safe run, in the terms the claims use: the invariants of 10_state.md R41,
and the premise "no command of this run failed", which is the sticky flag (70_reset_and_hazards.md R358). -/

namespace Sys2Proof.Safety

open Sys2Proof Sys2Proof.Machine

/-- The payload length a segment record must have (R41 item 5, 42 R136, R138, R140); no command makes a Kanji record. -/
def SegmentSound (r : Segment) : Prop :=
  r.count ≤ Config.txMax ∧
  match r.mode with
  | .numeric => r.bits.length = 10 * (r.count / 3) + [0, 4, 7].getD (r.count % 3) 0
  | .alphanumeric => r.bits.length = 11 * (r.count / 2) + 6 * (r.count % 2)
  | .byte => 1 ≤ r.count ∧ r.bits.length = 8 * r.count
  | .kanji => False

/-- The invariants of R41. Items 3 and 6 (the range of every element, `STATUS[31:9] = 0`) are carried by the types. -/
structure Inv (s : State) : Prop where
  degBound : s.deg.toNat ≤ Config.degMax
  coefLength : s.coef.length = s.deg.toNat
  remLength : s.rem.length = s.deg.toNat
  cwBound : s.cw.length ≤ Config.cwMax
  txBound : s.tx.length ≤ Config.txMax
  bbBound : s.bb.length ≤ Config.bbMax
  segBound : s.seg.length ≤ Config.segMax
  payloadBound : payloadBits s.seg ≤ Config.bbMax
  segSound : ∀ r ∈ s.seg, SegmentSound r

/-- The last command succeeded. -/
def Succeeded (s : State) : Prop := s.status.code = .ok

/-- No command failed since the sticky flag was last cleared (R23, 70 R358). -/
def NoFailureRecorded (s : State) : Prop := s.status.sticky = false

/-- Two states that differ at most in `STATUS`, the register no command reads as an input (R23). -/
def SameButStatus (s t : State) : Prop := t = { s with status := t.status }

/-- The core's part of two states is the same; the command stream may differ. -/
def SameCore (s t : State) : Prop := t = { s with cmds := t.cmds, idx := t.idx }

end Sys2Proof.Safety
end

