-- ==== Sys2Proof/WellFormed.lean ====
section
/-! DEFINITION. Well-formed commands. The types of `Instr` already confine every operand to its slice (30_encoding.md R72),
so every term has a command word. What is left to check is step (3) of R78: the operand ranges a command's own rule
lists, as far as they depend on the operands and the parameters alone. A command that fails this check is a legal
WORD: the decoder accepts it and the machine ends it with `BAD_OPERAND` in every state (R73: it is never truncated).
Ranges that depend on a buffer's length are the machine's. -/

namespace Sys2Proof

/-- A symbol version (44_assembler.md R191, 46_bch.md R229): 1 to 40. -/
def versionInRange (v : BitVec 8) : Bool := 1 ≤ v.toNat && v.toNat ≤ 40

/-- A degree the coefficient commands take (43_rs_encoder.md R166, R177): 1 to `DEG_MAX`. -/
def degreeInRange (d : BitVec 8) : Bool := 1 ≤ d.toNat && d.toNat ≤ Config.degMax

/-- A field `BB.APP` takes (42_bitbuf_segments.md R132): width at most 16, value below `2^n`. -/
def fieldInRange (n : BitVec 5) (v : BitVec 16) : Bool := n.toNat ≤ 16 && v.toNat < 2 ^ n.toNat

/-- A capacity operand (44_assembler.md R190, R196, R198): `8·cap ≤ BB_MAX`. -/
def capacityInRange (cap : BitVec 16) : Bool := 8 * cap.toNat ≤ Config.bbMax

/-- The operand ranges of each command (30_encoding.md R78 step 3, and the command's rule). -/
def wellFormed : Instr → Bool
  | .nop => true
  | .rst => true
  | .rgRd k => k.toNat ≤ 6
  | .stClr => true
  | .gf8Mul _ _ => true
  | .gf8Exp _ => true
  | .gf8Log _ => true
  | .gf4Mul a b => a.toNat ≤ 15 && b.toNat ≤ 15
  | .gf4Exp i => i.toNat ≤ 15
  | .gf4Log a => a.toNat ≤ 15
  | .bbClr => true
  | .bbApp n v => fieldInRange n v
  | .bbRd _ => true
  | .txClr => true
  | .txPush _ => true
  | .sgClr => true
  | .sgNum => true
  | .sgAln => true
  | .sgByt => true
  | .sgRd _ k => k.toNat ≠ 3
  | .cfGen d => degreeInRange d
  | .cfSet d => degreeInRange d
  | .cfWr _ _ => true
  | .cfRd _ => true
  | .rmInit => true
  | .rmStep _ => true
  | .rmRd _ => true
  | .rsRem _ _ => true
  | .cwClr => true
  | .cwPush _ => true
  | .cwRd _ => true
  | .sgTot ver => versionInRange ver
  | .asCat ver => versionInRange ver
  | .asTerm cap => capacityInRange cap
  | .asAlign => true
  | .asPad cap => capacityInRange cap
  | .asPack => true
  | .mkBit _ _ _ => true
  | .fmEnc f => f.toNat ≤ 31
  | .fmDec w => w.toNat < 2 ^ 15
  | .fmSyn u => u.toNat < 2 ^ 15
  | .fmCor w => w.toNat < 2 ^ 15
  | .vrEnc v => versionInRange v
  | .vrDec _ => true
  | .syRd i => i.toNat ≤ 5
  | .lcRd i => i.toNat < Config.maxPoly
  | .lcEval x => x.toNat ≤ 15

end Sys2Proof
end

