-- ==== Sys2Proof/Certificates/Slice0/Obligations.lean ====
section
/-! DEFINITION. The statements for the provers, one per claim made from the numbered rules of spec/. The helpers of namespace
`Sys2Proof.Claims` restate, apart from the model's own functions, what the rules say: the two endings of a command, the
field arithmetic on plain numbers, polynomials by Horner's scheme, the rows of the opcode table. -/

namespace Sys2Proof.Claims

open Sys2Proof Sys2Proof.Machine

/-! ## The two endings of a command -/

/-- The state after `ok v` (00_scope.md R13, 10_state.md R21, R23): `RES <- v`, `STATUS.CODE <- 0`, `STICKY` as it was. -/
def done (v : Word) (s : State) : State :=
  { s with res := v, status := { code := .ok, sticky := s.status.sticky } }

/-- The state after `fail k` (60_exceptions.md R322). -/
def failed (k : Code) (s : State) : State :=
  { s with res := 0, status := { code := k, sticky := true } }

/-- A number in the 32-bit result register. -/
def num (n : Nat) : Word := BitVec.ofNat 32 n

/-! ## Field arithmetic on plain numbers -/

/-- One iteration of 41_gf.md R110 on numbers: double, drop the bit shifted out, add 0x1D on carry, add the multiplicand for a 1
bit. -/
def gf8RefStep (a b : Nat) (z i : Nat) : Nat :=
  let z2 := if 128 ≤ z then (2 * z % 256) ^^^ 0x1D else 2 * z
  if b.testBit i then z2 ^^^ a else z2

/-- The product of GF(2^8) on numbers below 256 (R110): multiplier bits 7 down to 0. -/
def gf8Ref (a b : Nat) : Nat := [7, 6, 5, 4, 3, 2, 1, 0].foldl (gf8RefStep a b) 0

/-- `2^i` in GF(2^8). -/
def pow8 (i : Nat) : Byte := Nat.iterate (fun z => gf8Mul z 2) i 1

/-- The product of polynomials modulo `x^4 + x + 1` (41_gf.md R117), by double-and-reduce. -/
def gf4Ref (a b : Nibble) : Nibble :=
  [3, 2, 1, 0].foldl
    (fun z i =>
      let z2 := if z.getLsbD 3 then (z <<< 1) ^^^ 3 else z <<< 1
      if b.getLsbD i then z2 ^^^ a else z2) 0

/-- `α^i` in GF(2^4), `α = 2`. -/
def pow4 (i : Nat) : Nibble := Nat.iterate (fun z => gf4Ref z 2) i 1

/-- The value at `x` of a byte polynomial, highest power first. -/
def horner8 (p : List Byte) (x : Byte) : Byte := p.foldl (fun acc c => gf8Mul acc x ^^^ c) 0

/-- The value at `x` of a GF(2^4) polynomial, lowest power first (46_bch.md R236). -/
def horner4 (p : List Nibble) (x : Nibble) : Nibble := p.foldr (fun c acc => gf4Ref acc x ^^^ c) 0

/-- The polynomial over GF(2) of a word as a GF(2^4) polynomial: coefficient `j` is bit `j` (46_bch.md R232). -/
def wordPoly (u : BitVec 15) : List Nibble := (List.range 15).map fun j => if u.getLsbD j then 1 else 0

/-- The product of polynomials over GF(2) as numbers, `q` of at most `n` bits. -/
def clmul (n q g : Nat) : Nat := (List.range n).foldl (fun acc i => if q.testBit i then acc ^^^ (g <<< i) else acc) 0

/-! ## Byte polynomials -/

/-- `g(x)·(x − r)`, highest power first; minus is exclusive-or (41_gf.md R111). -/
def mulLinear (g : List Byte) (r : Byte) : List Byte :=
  List.zipWith (fun a b => a ^^^ b) (g ++ [0]) (0 :: g.map fun c => gf8Mul c r)

/-- The product of `(x − r^i)` for `i` below `d`, with its leading 1 (43_rs_encoder.md R160). -/
def genPoly (d : Nat) : List Byte := (List.range d).foldl (fun g i => mulLinear g (pow8 i)) [1]

/-- One division step, slot by slot (43_rs_encoder.md R162). -/
def windowAfter (C W : List Byte) (b : Byte) : List Byte :=
  (List.range C.length).map fun i => W.getD (i + 1) 0 ^^^ gf8Mul (C.getD i 0) (b ^^^ W.getD 0 0)

/-- Long division of a polynomial by the monic polynomial with the coefficients `C` behind its leading 1: `n` leading terms
are cancelled, what is left is the remainder. -/
def longDivision (C : List Byte) : Nat → List Byte → List Byte
  | 0, p => p
  | _ + 1, [] => []
  | n + 1, f :: p =>
    longDivision C n
      (List.zipWith (fun a c => a ^^^ gf8Mul c f) (p.take C.length) C ++ p.drop C.length)

/-! ## Bit fields -/

/-- The number that `width` bits from position `start` spell, first bit most significant (20_memory.md R52). -/
def field (bits : List Bool) (start width : Nat) : Nat :=
  ((bits.drop start).take width).foldl (fun a b => 2 * a + b.toNat) 0

/-- The digit at position `j` of a text. -/
def digit (t : List Byte) (j : Nat) : Nat := (t.getD j 0).toNat - 0x30

/-- The 45 alphanumeric characters in the order of 10_state.md R37. -/
def alnumChars : List Nat := "0123456789ABCDEFGHIJKLMNOPQRSTUVWXYZ $%*+-./:".toList.map Char.toNat

/-- The value of the character at position `j` of a text: its position in the listing (R37). -/
def charValue (t : List Byte) (j : Nat) : Nat := alnumChars.idxOf (t.getD j 0).toNat

/-- The payload bits held by a segment list. -/
def heldBits (L : List Segment) : Nat := (L.map fun r => r.bits.length).sum

/-- The mode indicator as a number (30_encoding.md R82). -/
def indicator : Mode → Nat
  | .numeric => 1
  | .alphanumeric => 2
  | .byte => 4
  | .kanji => 8

/-- The count-field widths of 44_assembler.md R191, by version tier. -/
def widthRow : Mode → List Nat
  | .numeric => [10, 12, 14]
  | .alphanumeric => [9, 11, 13]
  | .byte => [8, 16, 16]
  | .kanji => [8, 10, 12]

/-- The width for a version in 1..40: tiers 1 to 9, 10 to 26, 27 to 40 (R191). -/
def countWidth (m : Mode) (ver : Nat) : Nat :=
  (widthRow m).getD (if ver < 10 then 0 else if ver < 27 then 1 else 2) 0

/-- The bits a segment list needs at a version (44_assembler.md R192). -/
def neededBits (L : List Segment) (ver : Nat) : Nat :=
  (L.map fun r => 4 + countWidth r.mode ver + r.bits.length).sum

/-- The stream of one segment (30_encoding.md R83): indicator, count, payload, each field most significant bit first. -/
def segmentBits (ver : Nat) (r : Segment) : List Bool :=
  (List.range 4).map (fun k => (indicator r.mode).testBit (3 - k)) ++
  (List.range (countWidth r.mode ver)).map (fun k => r.count.testBit (countWidth r.mode ver - 1 - k)) ++ r.bits

/-! ## The BCH words -/

/-- The distance of a received word from the masked format word of `f` (46_bch.md R223). -/
def fmtDistance (w : BitVec 18) (f : BitVec 5) : Nat := popcount (w.setWidth 15 ^^^ fmtEnc f)

/-- The distance of a received word from the word of version `v` (46_bch.md R228). -/
def verDistance (w : BitVec 18) (v : Nat) : Nat := popcount (w ^^^ verEnc (BitVec.ofNat 6 v))

/-! ## The opcode table -/

/-- The rows of spec/opcode_table.json: mnemonic, match, mask (30_encoding.md R75). -/
def opcodeRows : List (String × Word × Word) :=
  [("NOP", 0x00000000, 0xFFFFFFFF), ("RST", 0x01000000, 0xFFFFFFFF),
   ("RG.RD", 0x02000000, 0xFFFFFF00), ("ST.CLR", 0x03000000, 0xFFFFFFFF),
   ("GF8.MUL", 0x10000000, 0xFFFF0000), ("GF8.EXP", 0x11000000, 0xFFFFFF00),
   ("GF8.LOG", 0x12000000, 0xFFFFFF00), ("GF4.MUL", 0x20000000, 0xFFFF0000),
   ("GF4.EXP", 0x21000000, 0xFFFFFF00), ("GF4.LOG", 0x22000000, 0xFFFFFF00),
   ("BB.CLR", 0x30000000, 0xFFFFFFFF), ("BB.APP", 0x31000000, 0xFFE00000)] ++
  [("BB.RD", 0x32000000, 0xFFFF0000), ("TX.CLR", 0x33000000, 0xFFFFFFFF),
   ("TX.PUSH", 0x34000000, 0xFFFFFF00), ("SG.CLR", 0x35000000, 0xFFFFFFFF),
   ("SG.NUM", 0x36000000, 0xFFFFFFFF), ("SG.ALN", 0x37000000, 0xFFFFFFFF),
   ("SG.BYT", 0x38000000, 0xFFFFFFFF), ("SG.RD", 0x39000000, 0xFFFC0000),
   ("CF.GEN", 0x40000000, 0xFFFFFF00), ("CF.SET", 0x41000000, 0xFFFFFF00),
   ("CF.WR", 0x42000000, 0xFF000000), ("CF.RD", 0x43000000, 0xFFFF0000)] ++
  [("RM.INIT", 0x44000000, 0xFFFFFFFF), ("RM.STEP", 0x45000000, 0xFFFFFF00),
   ("RM.RD", 0x46000000, 0xFFFF0000), ("RS.REM", 0x47000000, 0xFF000000),
   ("CW.CLR", 0x48000000, 0xFFFFFFFF), ("CW.PUSH", 0x49000000, 0xFFFFFF00),
   ("CW.RD", 0x4A000000, 0xFFFF0000), ("SG.TOT", 0x50000000, 0xFFFFFF00),
   ("AS.CAT", 0x51000000, 0xFFFFFF00), ("AS.TERM", 0x52000000, 0xFFFF0000),
   ("AS.ALIGN", 0x53000000, 0xFFFFFFFF), ("AS.PAD", 0x54000000, 0xFFFF0000)] ++
  [("AS.PACK", 0x55000000, 0xFFFFFFFF), ("MK.BIT", 0x60000000, 0xFFF80000),
   ("FM.ENC", 0x70000000, 0xFFFFFF00), ("FM.DEC", 0x71000000, 0xFFFC0000),
   ("FM.SYN", 0x72000000, 0xFFFC0000), ("FM.COR", 0x73000000, 0xFFFC0000),
   ("VR.ENC", 0x74000000, 0xFFFFFF00), ("VR.DEC", 0x75000000, 0xFFFC0000),
   ("SY.RD", 0x76000000, 0xFFFF0000), ("LC.RD", 0x77000000, 0xFFFF0000),
   ("LC.EVAL", 0x78000000, 0xFFFFFF00)]

/-- The word is in a row of the table named `m`: `c & mask = match` (R75). -/
def InRow (c : Word) (m : String) : Prop := ∃ r ∈ opcodeRows, r.1 = m ∧ c &&& r.2.2 = r.2.1

/-- No row of the table holds the word (R74, R76). -/
def InNoRow (c : Word) : Prop := ∀ r ∈ opcodeRows, c &&& r.2.2 ≠ r.2.1

/-! ## Numbers of the outcome codes -/

/-- The numbers of 60_exceptions.md R321. -/
def codeNum : Code → Nat
  | .ok => 0
  | .illegalCmd => 1
  | .badOperand => 2
  | .badState => 3
  | .overflow => 4
  | .segCharset => 5
  | .segEmpty => 6
  | .capacity => 7
  | .formatEcc => 8
  | .versionEcc => 9

end Sys2Proof.Claims

open Sys2Proof Sys2Proof.Machine Sys2Proof.Safety Sys2Proof.Claims

/-! ## System commands, step, decoding -/

/-- R100, R101, R103 (40_system.md): completion, result and frame of NOP, RST, ST.CLR. -/
def Obligations.SystemCommandsComplete : Prop :=
  ∀ s : State,
    exec .nop s = .next (done 0 s) ∧
    exec .rst s = .next { State.reset with cmds := s.cmds, idx := s.idx } ∧
    exec .stClr s = .next { s with res := 0, status := { code := .ok, sticky := false } }

/-- R102 (40_system.md), R27 (10_state.md): completion and result of RG.RD, with the register numbers, the layout of STATUS (R23) and the code numbers (R321). -/
def Obligations.RegisterReadsComplete : Prop :=
  ∀ (k : BitVec 8) (s : State),
    exec (.rgRd k) s =
      if k = 0 then .next (done s.res s)
      else if k = 1 then .next (done (num (codeNum s.status.code + 256 * s.status.sticky.toNat)) s)
      else if k = 2 then .next (done (num s.deg.toNat) s)
      else if k = 3 then .next (done (num s.cw.length) s)
      else if k = 4 then .next (done (num s.tx.length) s)
      else if k = 5 then .next (done (num s.bb.length) s)
      else if k = 6 then .next (done (num s.seg.length) s)
      else .next (failed .badOperand s)

/-- 10_state.md (the index of a command list), 30_encoding.md (illegal words): step is fetch, decode, exec, and the index. The stop with no word left is the model's choice (log entry 4). -/
def Obligations.StepRunsTheDecodedCommand : Prop :=
  ∀ s : State,
    (∀ (c : Word) (i : Instr), s.cmds[s.idx]? = some c → decode c = .ok i →
      step s = match exec i s with
        | .next t => .next { t with idx := t.idx + 1 }
        | .fault r => .fault r
        | .refused r => .refused r) ∧
    (∀ (c : Word) (e : DecodeError), s.cmds[s.idx]? = some c → decode c = .error e →
      step s = .next { failed .illegalCmd s with idx := s.idx + 1 }) ∧
    (s.cmds[s.idx]? = none → step s = .fault .noCommand)

/-- 30_encoding.md, formats and opcode map: no bit of an operand is dropped. The encoder is the model's own, written from the same tables. -/
def Obligations.DecodeOfEncode : Prop :=
  ∀ i : Instr, decode (encode i) = .ok i

/-- R75 (30_encoding.md): the decoder accepts the words of the table's rows and no others, under the row's name. -/
def Obligations.WordIsCommandExactlyInItsRow : Prop :=
  (∀ (c : Word) (m : String), (∃ i, decode c = .ok i ∧ i.mnemonic = m) ↔ InRow c m) ∧
  (∀ (c : Word) (i : Instr), decode c = .ok i → encode i = c)

/-- R74, R76 (30_encoding.md): unassigned opcodes and reserved bits. -/
def Obligations.IllegalWordChangesNothingElse : Prop :=
  ∀ (s : State) (c : Word), s.cmds[s.idx]? = some c → InNoRow c →
    step s = .next { failed .illegalCmd s with idx := s.idx + 1 }

/-- 30_encoding.md section 1, operand assembly, with the ranges of the commands' own rules as `wellFormed` lists them. -/
def Obligations.OperandRangeViolationIsBadOperand : Prop :=
  ∀ (i : Instr) (s : State), wellFormed i = false → exec i s = .next (failed .badOperand s)

/-- The examples the command rules print: one word for each format and family. -/
def Obligations.SampleWordsDecode : Prop :=
  decode 0x00000000 = .ok .nop ∧ decode 0x02000001 = .ok (.rgRd 1) ∧
  decode 0x10008002 = .ok (.gf8Mul 0x02 0x80) ∧ decode 0x20000D0B = .ok (.gf4Mul 0xB 0xD) ∧
  decode 0x31040001 = .ok (.bbApp 4 1) ∧ decode 0x34000037 = .ok (.txPush 0x37) ∧
  decode 0x39020000 = .ok (.sgRd 0 2) ∧ decode 0x42010002 = .ok (.cfWr 2 1) ∧
  decode 0x47010000 = .ok (.rsRem 0 16) ∧ decode 0x51000001 = .ok (.asCat 1) ∧
  decode 0x52000013 = .ok (.asTerm 19) ∧ decode 0x60040103 = .ok (.mkBit 4 3 1) ∧
  decode 0x730075CC = .ok (.fmCor 0x75CC) ∧ decode 0x75006D85 = .ok (.vrDec 0x6D85) ∧
  decode 0x7800000F = .ok (.lcEval 0xF)

/-! ## Galois fields -/

/-- R110, R114 (41_gf.md): the product on plain numbers, against the model's bit vectors. -/
def Obligations.Gf8MultiplyCompletes : Prop :=
  ∀ (a b : BitVec 8) (s : State),
    exec (.gf8Mul a b) s = .next (done (num (gf8Ref a.toNat b.toNat)) s)

/-- 41_gf.md section 1: the laws of GF(2^8) arithmetic and the relation to the tables, which the spec marks as its own inference. -/
def Obligations.Gf8FieldLaws : Prop :=
  (∀ a b : Byte, gf8Mul a b = gf8Mul b a) ∧
  (∀ a b c : Byte, gf8Mul a (gf8Mul b c) = gf8Mul (gf8Mul a b) c) ∧
  (∀ a b c : Byte, gf8Mul a (b ^^^ c) = gf8Mul a b ^^^ gf8Mul a c) ∧
  (∀ a : Byte, gf8Mul a 1 = a ∧ gf8Mul a 0 = 0) ∧
  (∀ a : Byte, a ≠ 0 → ∃! b : Byte, gf8Mul a b = 1) ∧
  (∀ a b : Byte, a ≠ 0 → b ≠ 0 → gf8Mul a b = exp8 ((log8 a + log8 b) % 255)) ∧
  (∀ a : Byte, a ≠ 0 → gf8Mul a (exp8 ((255 - log8 a) % 255)) = 1) ∧
  (∀ i : Nat, i < 255 → exp8 (i + 1) = gf8Mul (exp8 i) 2) ∧
  (∀ a : Byte, a ≠ 0 → ∃! i : Nat, i < 255 ∧ exp8 i = a)

/-- R115, R116 (41_gf.md) with the tables of 10_state.md R35. The placeholder log8[0] = 0 is R116's own. -/
def Obligations.Gf8TableReadsComplete : Prop :=
  ∀ s : State,
    (∀ i : BitVec 8, exec (.gf8Exp i) s =
      .next (done (num (if i.toNat = 255 then 1 else (pow8 i.toNat).toNat)) s)) ∧
    (∀ a : BitVec 8, a ≠ 0 → ∃ l : Nat, l < 255 ∧ pow8 l = a ∧ exec (.gf8Log a) s = .next (done (num l) s)) ∧
    exec (.gf8Log 0) s = .next (done 0 s)

/-- R119, R120, R121 (41_gf.md), the product of R117, the tables of 10_state.md R36 written out. -/
def Obligations.Gf4CommandsComplete : Prop :=
  ∀ s : State,
    (∀ a b : BitVec 8, exec (.gf4Mul a b) s =
      if 15 < a.toNat ∨ 15 < b.toNat then .next (failed .badOperand s)
      else if a = 0 ∨ b = 0 then .next (done 0 s)
      else .next (done (zext (exp4 ((log4 (a.setWidth 4) + log4 (b.setWidth 4)) % 15))) s)) ∧
    (∀ i : BitVec 8, exec (.gf4Exp i) s =
      if 15 < i.toNat then .next (failed .badOperand s)
      else .next (done (num ([1, 2, 4, 8, 3, 6, 12, 11, 5, 10, 7, 14, 15, 13, 9, 1].getD i.toNat 0)) s)) ∧
    (∀ a : BitVec 8, exec (.gf4Log a) s =
      if 15 < a.toNat then .next (failed .badOperand s)
      else .next (done (num ([0, 0, 1, 4, 2, 8, 5, 10, 3, 14, 9, 7, 6, 13, 11, 12].getD a.toNat 0)) s))

/-- 41_gf.md section 3: what the spec derives of the GF(2^4) product. -/
def Obligations.Gf4TablesAndFieldLaws : Prop :=
  (∀ a b : Nibble, gf4Mul a b = gf4Ref a b) ∧
  (∀ i : Nat, i < 16 → exp4 i = pow4 i) ∧
  (∀ a b : Nibble, gf4Mul a b = gf4Mul b a) ∧
  (∀ a b c : Nibble, gf4Mul a (gf4Mul b c) = gf4Mul (gf4Mul a b) c) ∧
  (∀ a b c : Nibble, gf4Mul a (b ^^^ c) = gf4Mul a b ^^^ gf4Mul a c) ∧
  (∀ a : Nibble, gf4Mul a 1 = a ∧ gf4Mul a 0 = 0) ∧
  (∀ a : Nibble, a ≠ 0 → gf4Mul a (exp4 ((15 - log4 a) % 15)) = 1)

/-! ## Bit buffer, text buffer, segments -/

/-- R132 (42_bitbuf_segments.md), R130, R52: the appended bits one by one. -/
def Obligations.BitFieldAppendCompletes : Prop :=
  ∀ (n : BitVec 5) (v : BitVec 16) (s : State),
    (n.toNat ≤ 16 → v.toNat < 2 ^ n.toNat → s.bb.length + n.toNat ≤ Config.bbMax →
      ∃ bits : List Bool, bits.length = n.toNat ∧
        (∀ k : Nat, k < n.toNat → bits[k]? = some (v.getLsbD (n.toNat - 1 - k))) ∧
        exec (.bbApp n v) s = .next (done (num (s.bb.length + n.toNat)) { s with bb := s.bb ++ bits })) ∧
    ((16 < n.toNat ∨ 2 ^ n.toNat ≤ v.toNat) → exec (.bbApp n v) s = .next (failed .badOperand s)) ∧
    (n.toNat ≤ 16 → v.toNat < 2 ^ n.toNat → Config.bbMax < s.bb.length + n.toNat →
      exec (.bbApp n v) s = .next (failed .overflow s))

/-- R131, R133, R134, R135 (42_bitbuf_segments.md). -/
def Obligations.BitAndTextBufferCommandsComplete : Prop :=
  ∀ s : State,
    exec .bbClr s = .next (done 0 { s with bb := [] }) ∧
    (∀ (i : BitVec 16) (b : Bool), s.bb[i.toNat]? = some b →
      exec (.bbRd i) s = .next (done (num b.toNat) s)) ∧
    (∀ i : BitVec 16, s.bb.length ≤ i.toNat → exec (.bbRd i) s = .next (failed .badOperand s)) ∧
    exec .txClr s = .next (done 0 { s with tx := [] }) ∧
    (∀ c : BitVec 8, s.tx.length ≠ Config.txMax →
      exec (.txPush c) s = .next (done (num (s.tx.length + 1)) { s with tx := s.tx ++ [c] })) ∧
    (∀ c : BitVec 8, s.tx.length = Config.txMax → exec (.txPush c) s = .next (failed .overflow s))

/-- 42_bitbuf_segments.md on numeric encoding and SG.NUM: the payload field by field, and the failures in the order of the tests.
That a group is its decimal value the spec marks as from general knowledge. -/
def Obligations.NumericSegmentCompletes : Prop :=
  ∀ (s : State) (n : Nat), n = s.tx.length →
    (s.seg.length ≠ Config.segMax → (∀ c ∈ s.tx, 0x30 ≤ c.toNat ∧ c.toNat ≤ 0x39) →
      heldBits s.seg + (10 * (n / 3) + [0, 4, 7].getD (n % 3) 0) ≤ Config.bbMax →
      ∃ bits : List Bool,
        bits.length = 10 * (n / 3) + [0, 4, 7].getD (n % 3) 0 ∧
        (∀ g : Nat, g < n / 3 → field bits (10 * g) 10 =
          100 * digit s.tx (3 * g) + 10 * digit s.tx (3 * g + 1) + digit s.tx (3 * g + 2)) ∧
        (n % 3 = 2 → field bits (10 * (n / 3)) 7 = 10 * digit s.tx (n - 2) + digit s.tx (n - 1)) ∧
        (n % 3 = 1 → field bits (10 * (n / 3)) 4 = digit s.tx (n - 1)) ∧
        exec .sgNum s = .next (done (num bits.length)
          { s with seg := s.seg ++ [{ mode := .numeric, count := n, bits := bits }] })) ∧
    (s.seg.length = Config.segMax → exec .sgNum s = .next (failed .overflow s)) ∧
    (s.seg.length ≠ Config.segMax → (∃ c ∈ s.tx, c.toNat < 0x30 ∨ 0x39 < c.toNat) →
      exec .sgNum s = .next (failed .segCharset s)) ∧
    (s.seg.length ≠ Config.segMax → (∀ c ∈ s.tx, 0x30 ≤ c.toNat ∧ c.toNat ≤ 0x39) →
      Config.bbMax < heldBits s.seg + (10 * (n / 3) + [0, 4, 7].getD (n % 3) 0) →
      exec .sgNum s = .next (failed .overflow s))

/-- R138, R144 (42_bitbuf_segments.md), the character values of 10_state.md R37, and the failures in the order of the tests. -/
def Obligations.AlphanumericSegmentCompletes : Prop :=
  ∀ (s : State) (n : Nat), n = s.tx.length →
    (s.seg.length ≠ Config.segMax → (∀ c ∈ s.tx, c.toNat ∈ alnumChars) →
      heldBits s.seg + (11 * (n / 2) + 6 * (n % 2)) ≤ Config.bbMax →
      ∃ bits : List Bool,
        bits.length = 11 * (n / 2) + 6 * (n % 2) ∧
        (∀ g : Nat, g < n / 2 → field bits (11 * g) 11 =
          charValue s.tx (2 * g) * 45 + charValue s.tx (2 * g + 1)) ∧
        (n % 2 = 1 → field bits (11 * (n / 2)) 6 = charValue s.tx (n - 1)) ∧
        exec .sgAln s = .next (done (num bits.length)
          { s with seg := s.seg ++ [{ mode := .alphanumeric, count := n, bits := bits }] })) ∧
    (s.seg.length = Config.segMax → exec .sgAln s = .next (failed .overflow s)) ∧
    (s.seg.length ≠ Config.segMax → (∃ c ∈ s.tx, c.toNat ∉ alnumChars) →
      exec .sgAln s = .next (failed .segCharset s)) ∧
    (s.seg.length ≠ Config.segMax → (∀ c ∈ s.tx, c.toNat ∈ alnumChars) →
      Config.bbMax < heldBits s.seg + (11 * (n / 2) + 6 * (n % 2)) →
      exec .sgAln s = .next (failed .overflow s))

/-- R140, R145 (42_bitbuf_segments.md), and the failures in the order of the tests. -/
def Obligations.ByteSegmentCompletes : Prop :=
  ∀ (s : State) (n : Nat), n = s.tx.length →
    (n ≠ 0 → s.seg.length ≠ Config.segMax → heldBits s.seg + 8 * n ≤ Config.bbMax →
      ∃ bits : List Bool,
        bits.length = 8 * n ∧
        (∀ j : Nat, j < n → field bits (8 * j) 8 = (s.tx.getD j 0).toNat) ∧
        exec .sgByt s = .next (done (num (8 * n))
          { s with seg := s.seg ++ [{ mode := .byte, count := n, bits := bits }] })) ∧
    (s.seg.length = Config.segMax → exec .sgByt s = .next (failed .overflow s)) ∧
    (s.seg.length ≠ Config.segMax → n = 0 → exec .sgByt s = .next (failed .segEmpty s)) ∧
    (s.seg.length ≠ Config.segMax → n ≠ 0 → Config.bbMax < heldBits s.seg + 8 * n →
      exec .sgByt s = .next (failed .overflow s))

/-- R142, R146 (42_bitbuf_segments.md), the indicators of R82 (30_encoding.md). -/
def Obligations.SegmentListClearAndReadComplete : Prop :=
  ∀ s : State,
    exec .sgClr s = .next (done 0 { s with seg := [] }) ∧
    (∀ (i : BitVec 16) (r : Segment), s.seg[i.toNat]? = some r →
      exec (.sgRd i 0) s = .next (done (num (indicator r.mode)) s) ∧
      exec (.sgRd i 1) s = .next (done (num r.count) s) ∧
      exec (.sgRd i 2) s = .next (done (num r.bits.length) s)) ∧
    (∀ i : BitVec 16, exec (.sgRd i 3) s = .next (failed .badOperand s)) ∧
    (∀ (i : BitVec 16) (k : BitVec 2), s.seg.length ≤ i.toNat →
      exec (.sgRd i k) s = .next (failed .badOperand s))

/-! ## Reed-Solomon encoder -/

/-- R160, R166 (43_rs_encoder.md): the in-place loop of R161 against the polynomial product. -/
def Obligations.GeneratorCommandCompletes : Prop :=
  ∀ (d : BitVec 8) (s : State),
    (1 ≤ d.toNat → d.toNat ≤ Config.degMax →
      (genPoly d.toNat).head? = some 1 ∧
      exec (.cfGen d) s = .next (done (num d.toNat)
        { s with deg := d, coef := (genPoly d.toNat).tail, rem := List.replicate d.toNat 0 })) ∧
    ((d.toNat = 0 ∨ Config.degMax < d.toNat) → exec (.cfGen d) s = .next (failed .badOperand s))

/-- 43_rs_encoder.md section 1: what being the product of the factors x - r^i means for the values at the roots; the spec's inference. -/
def Obligations.GeneratorVanishesAtItsRoots : Prop :=
  ∀ d i : Nat, 1 ≤ d → d ≤ 255 → i < d → horner8 (1 :: rsGen d) (pow8 i) = 0

/-- 43_rs_encoder.md section 3: CF.SET (R167), CF.WR (R168), CF.RD (R169). The length premise of CF.RD is item 1 of the invariants of
R41; that CF.WR stores nothing at an index below DEG but beyond a shorter COEF is the model's choice (log entry 11). -/
def Obligations.CoefficientCommandsComplete : Prop :=
  ∀ s : State,
    (∀ d : BitVec 8, 1 ≤ d.toNat → d.toNat ≤ Config.degMax →
      exec (.cfSet d) s = .next (done (num d.toNat)
        { s with deg := d, coef := List.replicate d.toNat 0, rem := List.replicate d.toNat 0 })) ∧
    (∀ d : BitVec 8, (d.toNat = 0 ∨ Config.degMax < d.toNat) → exec (.cfSet d) s = .next (failed .badOperand s)) ∧
    (∀ (i : BitVec 16) (v : BitVec 8), i.toNat < s.deg.toNat →
      exec (.cfWr i v) s = .next (done (num v.toNat) { s with coef := s.coef.set i.toNat v })) ∧
    (∀ (i : BitVec 16) (v : BitVec 8), s.deg.toNat ≤ i.toNat → exec (.cfWr i v) s = .next (failed .badOperand s)) ∧
    (∀ (i : BitVec 16) (c : Byte), s.coef.length = s.deg.toNat → s.coef[i.toNat]? = some c →
      exec (.cfRd i) s = .next (done (num c.toNat) s)) ∧
    (∀ i : BitVec 16, s.deg.toNat ≤ i.toNat → exec (.cfRd i) s = .next (failed .badOperand s))

/-- R170, R172 (43_rs_encoder.md). The length premise of RM.RD is item 1 of the invariants of R41. -/
def Obligations.WindowCommandsComplete : Prop :=
  ∀ s : State,
    (s.deg ≠ 0 → exec .rmInit s = .next (done 0 { s with rem := List.replicate s.deg.toNat 0 })) ∧
    (s.deg = 0 → exec .rmInit s = .next (failed .badState s)) ∧
    (∀ (i : BitVec 16) (c : Byte), s.rem.length = s.deg.toNat → s.rem[i.toNat]? = some c →
      exec (.rmRd i) s = .next (done (num c.toNat) s)) ∧
    (∀ i : BitVec 16, s.deg.toNat ≤ i.toNat → exec (.rmRd i) s = .next (failed .badOperand s))

/-- R162, R171 (43_rs_encoder.md): the step slot by slot. -/
def Obligations.DivisionStepCompletes : Prop :=
  ∀ (b : BitVec 8) (s : State),
    (Inv s → s.deg ≠ 0 →
      exec (.rmStep b) s = .next (done (num (b ^^^ s.rem.getD 0 0).toNat)
        { s with rem := windowAfter s.coef s.rem b })) ∧
    (s.deg = 0 → exec (.rmStep b) s = .next (failed .badState s))

/-- R173 (43_rs_encoder.md), the steps of R162 one after another. -/
def Obligations.RemainderCommandCompletes : Prop :=
  ∀ (off len : BitVec 12) (s : State),
    (Inv s → s.deg ≠ 0 → off.toNat + len.toNat ≤ s.cw.length →
      exec (.rsRem off len) s = .next (done (num s.deg.toNat)
        { s with
          rem := ((s.cw.drop off.toNat).take len.toNat).foldl (windowAfter s.coef) (List.replicate s.deg.toNat 0) })) ∧
    (s.cw.length < off.toNat + len.toNat → exec (.rsRem off len) s = .next (failed .badOperand s)) ∧
    (off.toNat + len.toNat ≤ s.cw.length → s.deg = 0 → exec (.rsRem off len) s = .next (failed .badState s))

/-- 43_rs_encoder.md section 2: the sliding window against polynomial long division; the spec's inference. -/
def Obligations.RemainderIsPolynomialRemainder : Prop :=
  ∀ D C : List Byte, C ≠ [] →
    rsRem D C = longDivision C D.length (D ++ List.replicate C.length 0)

/-- 43_rs_encoder.md section 4, RM.STEP: the stepped and the whole division agree; the spec's inference. -/
def Obligations.SteppingEqualsWholeDivision : Prop :=
  ∀ (off len : BitVec 12) (s : State), Inv s → s.deg ≠ 0 → off.toNat + len.toNat ≤ s.cw.length →
    let stepped := runWords
      ((Instr.rmInit :: ((s.cw.drop off.toNat).take len.toNat).map Instr.rmStep).map encode) s
    let whole := runWords [encode (.rsRem off len)] s
    stepped.1.rem = whole.1.rem ∧ stepped.1.coef = whole.1.coef ∧ stepped.1.cw = whole.1.cw ∧
    (∀ r ∈ stepped.2, r.code = 0) ∧ (∀ r ∈ whole.2, r.code = 0)

/-- 43_rs_encoder.md section 2: the properties of the remainder; the spec's inference. -/
def Obligations.RemainderLaws : Prop :=
  ∀ C : List Byte, C ≠ [] →
    rsRem [] C = List.replicate C.length 0 ∧
    (∀ (m : Nat) (D : List Byte), rsRem (List.replicate m 0 ++ D) C = rsRem D C) ∧
    (∀ D E : List Byte, D.length = E.length →
      rsRem (List.zipWith (fun a b => a ^^^ b) D E) C =
        List.zipWith (fun a b => a ^^^ b) (rsRem D C) (rsRem E C)) ∧
    rsRem [1] C = C ∧
    (∀ D : List Byte, rsRem (D ++ rsRem D C) C = List.replicate C.length 0)

/-- 43_rs_encoder.md section 2: the encoder produces code words; the spec's inference. -/
def Obligations.SystematicCodewordVanishesAtRoots : Prop :=
  ∀ (D : List Byte) (d i : Nat), 1 ≤ d → d ≤ 255 → i < d →
    horner8 (D ++ rsRem D (rsGen d)) (pow8 i) = 0

/-- R174, R175, R176 (43_rs_encoder.md). -/
def Obligations.CodewordBufferCommandsComplete : Prop :=
  ∀ s : State,
    exec .cwClr s = .next (done 0 { s with cw := [] }) ∧
    (∀ b : BitVec 8, s.cw.length ≠ Config.cwMax →
      exec (.cwPush b) s = .next (done (num (s.cw.length + 1)) { s with cw := s.cw ++ [b] })) ∧
    (∀ b : BitVec 8, s.cw.length = Config.cwMax → exec (.cwPush b) s = .next (failed .overflow s)) ∧
    (∀ (i : BitVec 16) (c : Byte), s.cw[i.toNat]? = some c → exec (.cwRd i) s = .next (done (num c.toNat) s)) ∧
    (∀ i : BitVec 16, s.cw.length ≤ i.toNat → exec (.cwRd i) s = .next (failed .badOperand s))

/-! ## Assembler, mask -/

/-- R191, R192, R194 (44_assembler.md). -/
def Obligations.SegmentTotalCompletes : Prop :=
  ∀ (ver : BitVec 8) (s : State),
    (1 ≤ ver.toNat → ver.toNat ≤ 40 → (∀ r ∈ s.seg, r.count < 2 ^ countWidth r.mode ver.toNat) →
      exec (.sgTot ver) s = .next (done (num (neededBits s.seg ver.toNat)) s)) ∧
    (1 ≤ ver.toNat → ver.toNat ≤ 40 → (∃ r ∈ s.seg, 2 ^ countWidth r.mode ver.toNat ≤ r.count) →
      exec (.sgTot ver) s = .next (failed .capacity s)) ∧
    ((ver.toNat < 1 ∨ 40 < ver.toNat) → exec (.sgTot ver) s = .next (failed .badOperand s))

/-- R193, R195 (44_assembler.md), R83 (30_encoding.md), R52 (20_memory.md). -/
def Obligations.ConcatenationCompletes : Prop :=
  ∀ (ver : BitVec 8) (s : State),
    (1 ≤ ver.toNat → ver.toNat ≤ 40 → neededBits s.seg ver.toNat ≤ Config.bbMax →
      (∀ r ∈ s.seg, r.count < 2 ^ countWidth r.mode ver.toNat) →
      exec (.asCat ver) s = .next (done (num (s.seg.flatMap (segmentBits ver.toNat)).length)
        { s with bb := s.seg.flatMap (segmentBits ver.toNat) })) ∧
    (1 ≤ ver.toNat → ver.toNat ≤ 40 → Config.bbMax < neededBits s.seg ver.toNat →
      exec (.asCat ver) s = .next (failed .overflow s)) ∧
    (1 ≤ ver.toNat → ver.toNat ≤ 40 → neededBits s.seg ver.toNat ≤ Config.bbMax →
      (∃ r ∈ s.seg, 2 ^ countWidth r.mode ver.toNat ≤ r.count) →
      exec (.asCat ver) s = .next (failed .capacity s)) ∧
    ((ver.toNat < 1 ∨ 40 < ver.toNat) → exec (.asCat ver) s = .next (failed .badOperand s))

/-- R196 (44_assembler.md). -/
def Obligations.TerminatorCompletes : Prop :=
  ∀ (cap : BitVec 16) (s : State),
    (8 * cap.toNat ≤ Config.bbMax → s.bb.length ≤ 8 * cap.toNat →
      exec (.asTerm cap) s = .next (done (num (s.bb.length + min 4 (8 * cap.toNat - s.bb.length)))
        { s with bb := s.bb ++ List.replicate (min 4 (8 * cap.toNat - s.bb.length)) false })) ∧
    (Config.bbMax < 8 * cap.toNat → exec (.asTerm cap) s = .next (failed .badOperand s)) ∧
    (8 * cap.toNat ≤ Config.bbMax → 8 * cap.toNat < s.bb.length →
      exec (.asTerm cap) s = .next (failed .capacity s))

/-- R197 (44_assembler.md). -/
def Obligations.AlignmentCompletes : Prop :=
  ∀ s : State, ∃ t : Nat, t < 8 ∧ (s.bb.length + t) % 8 = 0 ∧
    exec .asAlign s = .next (done (num (s.bb.length + t)) { s with bb := s.bb ++ List.replicate t false })

/-- R198 (44_assembler.md), R88 (30_encoding.md). -/
def Obligations.PaddingCompletes : Prop :=
  ∀ (cap : BitVec 16) (s : State),
    (8 * cap.toNat ≤ Config.bbMax → s.bb.length % 8 = 0 → s.bb.length ≤ 8 * cap.toNat →
      ∃ pad : List Bool, pad.length = 8 * cap.toNat - s.bb.length ∧
        (∀ j : Nat, 8 * j < pad.length → field pad (8 * j) 8 = if j % 2 = 0 then 0xEC else 0x11) ∧
        exec (.asPad cap) s = .next (done (num (8 * cap.toNat)) { s with bb := s.bb ++ pad })) ∧
    (Config.bbMax < 8 * cap.toNat → exec (.asPad cap) s = .next (failed .badOperand s)) ∧
    (8 * cap.toNat ≤ Config.bbMax → s.bb.length % 8 ≠ 0 → exec (.asPad cap) s = .next (failed .badState s)) ∧
    (8 * cap.toNat ≤ Config.bbMax → s.bb.length % 8 = 0 → 8 * cap.toNat < s.bb.length →
      exec (.asPad cap) s = .next (failed .capacity s))

/-- R53 (20_memory.md), R199 (44_assembler.md): the packing bit by bit. -/
def Obligations.PackingCompletes : Prop :=
  ∀ s : State,
    (s.bb.length % 8 = 0 → s.bb.length / 8 ≤ Config.cwMax →
      ∃ bytes : List Byte, bytes.length = s.bb.length / 8 ∧
        (∀ k b : Nat, k < s.bb.length / 8 → b < 8 →
          (bytes.getD k 0).getLsbD (7 - b) = s.bb.getD (8 * k + b) false) ∧
        exec .asPack s = .next (done (num (s.bb.length / 8)) { s with cw := bytes })) ∧
    (s.bb.length % 8 ≠ 0 → exec .asPack s = .next (failed .badState s)) ∧
    (s.bb.length % 8 = 0 → Config.cwMax < s.bb.length / 8 → exec .asPack s = .next (failed .overflow s))

/-- 44_assembler.md section 3: the command sequence against the one function; the spec's inference. -/
def Obligations.AssemblySequenceCompletes : Prop :=
  ∀ (ver : BitVec 8) (cap : BitVec 16) (s : State),
    1 ≤ ver.toNat → ver.toNat ≤ 40 → cap.toNat ≤ Config.cwMax → 8 * cap.toNat ≤ Config.bbMax →
    (∀ r ∈ s.seg, r.count < 2 ^ countWidth r.mode ver.toNat) →
    (neededBits s.seg ver.toNat ≤ 8 * cap.toNat →
      let out := runWords ([Instr.asCat ver, .asTerm cap, .asAlign, .asPad cap, .asPack].map encode) s
      assemble s.seg ver.toNat cap.toNat = some out.1.cw ∧ out.1.cw.length = cap.toNat ∧
      out.1.seg = s.seg ∧ (∀ r ∈ out.2, r.code = 0) ∧
      (∀ i : Nat, i < neededBits s.seg ver.toNat →
        (out.1.cw.getD (i / 8) 0).getLsbD (7 - i % 8) =
          (s.seg.flatMap (segmentBits ver.toNat)).getD i false)) ∧
    (8 * cap.toNat < neededBits s.seg ver.toNat → assemble s.seg ver.toNat cap.toNat = none)

/-- 45_mask.md: the predicates. Masks 1 to 7 rest on the default of MASK_FN (log entry 2). -/
def Obligations.MaskPredicateCompletes : Prop :=
  (∀ (m : BitVec 3) (x y : BitVec 8) (s : State),
    let X := x.toNat
    let Y := y.toNat
    let holds : Bool := match m.toNat with
      | 0 => (X + Y) % 2 = 0
      | 1 => Y % 2 = 0
      | 2 => X % 3 = 0
      | 3 => (X + Y) % 3 = 0
      | 4 => (X / 3 + Y / 2) % 2 = 0
      | 5 => X * Y % 2 + X * Y % 3 = 0
      | 6 => (X * Y % 2 + X * Y % 3) % 2 = 0
      | _ => ((X + Y) % 2 + X * Y % 3) % 2 = 0
    exec (.mkBit m x y) s = .next (done (if holds then 1 else 0) s)) ∧
  (∀ (m x y : Nat) (dark : Bool), maskModule m x y (maskModule m x y dark) = dark)

/-! ## BCH unit -/

/-- R221, R224 (46_bch.md): the shift loop against divisibility by the generator polynomial. -/
def Obligations.FormatEncodeCompletes : Prop :=
  ∀ (f : BitVec 8) (s : State),
    (f.toNat ≤ 31 → ∃ p q : Nat, p < 1024 ∧ q < 32 ∧ f.toNat * 1024 + p = clmul 5 q 0x537 ∧
      exec (.fmEnc f) s = .next (done (num ((f.toNat * 1024 + p) ^^^ 0x5412)) s)) ∧
    (31 < f.toNat → exec (.fmEnc f) s = .next (failed .badOperand s))

/-- R223, R225 (46_bch.md). -/
def Obligations.FormatDecodeExact : Prop :=
  ∀ (w : BitVec 18) (s : State),
    (w.toNat < 2 ^ 15 →
      (∀ f : BitVec 5, fmtDistance w f < 4 → (∀ g : BitVec 5, g ≠ f → fmtDistance w f < fmtDistance w g) →
        exec (.fmDec w) s = .next (done (num f.toNat) s)) ∧
      ((¬ ∃ f : BitVec 5, fmtDistance w f < 4 ∧ ∀ g : BitVec 5, g ≠ f → fmtDistance w f < fmtDistance w g) →
        exec (.fmDec w) s = .next (failed .formatEcc s))) ∧
    (2 ^ 15 ≤ w.toNat → exec (.fmDec w) s = .next (failed .badOperand s))

/-- 46_bch.md section 2: the error-correction bound of the format code; the spec's inference. -/
def Obligations.FormatDecodeCorrectsThreeErrors : Prop :=
  ∀ (f : BitVec 5) (e : BitVec 15) (s : State), popcount e ≤ 3 →
    exec (.fmDec ((fmtEnc f ^^^ e).setWidth 18)) s = .next (done (num f.toNat) s)

/-- R229 (46_bch.md), with the parity of R227. -/
def Obligations.VersionEncodeCompletes : Prop :=
  ∀ (v : BitVec 8) (s : State),
    (1 ≤ v.toNat → v.toNat ≤ 40 →
      ∃ p q : Nat, p < 4096 ∧ q < 64 ∧ v.toNat * 4096 + p = clmul 6 q 0x1F25 ∧
        exec (.vrEnc v) s = .next (done (num (v.toNat * 4096 + p)) s)) ∧
    ((v.toNat < 1 ∨ 40 < v.toNat) → exec (.vrEnc v) s = .next (failed .badOperand s))

/-- R228, R230 (46_bch.md): the decoder over the words of the 40 valid versions. -/
def Obligations.VersionDecodeExact : Prop :=
  ∀ (w : BitVec 18) (s : State),
    (∀ v : Nat, 1 ≤ v → v ≤ 40 → verDistance w v < 5 →
      (∀ u : Nat, 1 ≤ u → u ≤ 40 → u ≠ v → verDistance w v < verDistance w u) →
      exec (.vrDec w) s = .next (done (num v) s)) ∧
    ((¬ ∃ v : Nat, 1 ≤ v ∧ v ≤ 40 ∧ verDistance w v < 5 ∧
        ∀ u : Nat, 1 ≤ u → u ≤ 40 → u ≠ v → verDistance w v < verDistance w u) →
      exec (.vrDec w) s = .next (failed .versionEcc s))

/-- 46_bch.md section 2: the error-correction bound of the version code; the spec's inference. -/
def Obligations.VersionDecodeCorrectsThreeErrors : Prop :=
  ∀ (v : Nat) (e : BitVec 18) (s : State), 1 ≤ v → v ≤ 40 → popcount e ≤ 3 →
    exec (.vrDec (verEnc (BitVec.ofNat 6 v) ^^^ e)) s = .next (done (num v) s)

/-- 46_bch.md section 4, FM.SYN, over the syndromes of section 3, which the spec has from general knowledge (log entry 6). -/
def Obligations.SyndromeCommandCompletes : Prop :=
  ∀ (u : BitVec 18) (s : State),
    (u.toNat < 2 ^ 15 → ∃ S : Vector Nibble 6,
      (∀ i : Nat, i < 6 → S.toList.getD i 0 = horner4 (wordPoly (u.setWidth 15)) (pow4 (i + 1))) ∧
      exec (.fmSyn u) s = .next (done (if ∀ x ∈ S.toList, x = 0 then 0 else 1) { s with syn := S })) ∧
    (2 ^ 15 ≤ u.toNat → exec (.fmSyn u) s = .next (failed .badOperand s))

/-- 46_bch.md section 3, the format syndromes: the roots of the generator decide membership. The passage is general knowledge of the spec (log entry 6). -/
def Obligations.SyndromesVanishExactlyOnCodewords : Prop :=
  ∀ u : BitVec 15, (∀ x ∈ (fmtSyn u).toList, x = 0) ↔ ∃ f : BitVec 5, u = fmtEnc f ^^^ 0x5412

/-- 46_bch.md sections 2 and 4: the syndrome path corrects three errors; the spec's inference over routines from general knowledge (log entry 6). -/
def Obligations.FormatCorrectionFixesThreeErrors : Prop :=
  ∀ (f : BitVec 5) (e : BitVec 15) (s : State), popcount e ≤ 3 →
    ∃ sigma : Vector Nibble Config.maxPoly, sigma.toList.getD 0 0 = 1 ∧
      exec (.fmCor ((fmtEnc f ^^^ e).setWidth 18)) s =
        .next (done (num (fmtEnc f ^^^ 0x5412).toNat)
          { s with syn := fmtSyn (fmtEnc f ^^^ e ^^^ 0x5412), sigma := sigma })

/-- 46_bch.md sections 3 and 4: the correction loop, with the locator evaluated by Horner's scheme (log entry 6). -/
def Obligations.FormatCorrectionOutcomes : Prop :=
  ∀ (w : BitVec 18) (s : State),
    (w.toNat < 2 ^ 15 →
      exec (.fmCor w) s = .next (failed .formatEcc s) ∨
      ∃ (u' : BitVec 15) (sigma : Vector Nibble Config.maxPoly),
        exec (.fmCor w) s = .next (done (num u'.toNat)
          { s with syn := fmtSyn (w.setWidth 15 ^^^ 0x5412), sigma := sigma }) ∧
        (∀ x ∈ (fmtSyn u').toList, x = 0) ∧
        (∀ i : Nat, i < 15 →
          (u'.getLsbD i ≠ (w.setWidth 15 ^^^ (0x5412 : BitVec 15)).getLsbD i ↔
            horner4 sigma.toList (exp4 (15 - i)) = 0))) ∧
    (2 ^ 15 ≤ w.toNat → exec (.fmCor w) s = .next (failed .badOperand s))

/-- 46_bch.md section 4, LC.RD corner cases: what a computed locator looks like; the spec's inference (log entry 6). -/
def Obligations.StoredLocatorHasLowDegree : Prop :=
  ∀ (w : BitVec 18) (s t : State), exec (.fmCor w) s = .next t → t.status.code = .ok →
    t.sigma.toList.getD 0 0 = 1 ∧ ∀ i : Nat, 6 ≤ i → t.sigma.toList.getD i 0 = 0

/-- 46_bch.md section 4, SY.RD, LC.RD, LC.EVAL: the table form of poly_eval, which the spec has from general knowledge (log entry
6), against Horner's scheme. -/
def Obligations.SyndromePathReadsComplete : Prop :=
  ∀ s : State,
    (∀ i : BitVec 16, exec (.syRd i) s =
      if 5 < i.toNat then .next (failed .badOperand s)
      else .next (done (num (s.syn.toList.getD i.toNat 0).toNat) s)) ∧
    (∀ i : BitVec 16, exec (.lcRd i) s =
      if Config.maxPoly ≤ i.toNat then .next (failed .badOperand s)
      else .next (done (num (s.sigma.toList.getD i.toNat 0).toNat) s)) ∧
    (∀ x : BitVec 8, exec (.lcEval x) s =
      if 15 < x.toNat then .next (failed .badOperand s)
      else .next (done (num (horner4 s.sigma.toList (x.setWidth 4)).toNat) s))

/-! ## Whole-machine rules -/

/-- 20_memory.md sections 1 and 5: a buffer answers what was written to it, at the place it was written and nowhere else. -/
def Obligations.ReadAfterWriteAnswersTheWrittenValue : Prop :=
  (∀ (b : BitVec 8) (s t : State), s.cw.length < Config.cwMax → exec (.cwPush b) s = .next t →
    exec (.cwRd (BitVec.ofNat 16 s.cw.length)) t = .next (done (num b.toNat) t)) ∧
  (∀ (i j : BitVec 16) (v : BitVec 8) (s t : State), Inv s → i.toNat < s.deg.toNat → exec (.cfWr i v) s = .next t →
    exec (.cfRd i) t = .next (done (num v.toNat) t) ∧
    (j ≠ i → ∀ p : State, exec (.cfRd j) s = .next p →
      ∃ q : State, exec (.cfRd j) t = .next q ∧ q.response = p.response)) ∧
  (∀ (n : BitVec 5) (v : BitVec 16) (s t : State), n.toNat ≤ 16 → v.toNat < 2 ^ n.toNat →
    s.bb.length + n.toNat ≤ Config.bbMax → exec (.bbApp n v) s = .next t →
    ∀ k : Nat, k < n.toNat →
      exec (.bbRd (BitVec.ofNat 16 (s.bb.length + k))) t =
        .next (done (num (v.getLsbD (n.toNat - 1 - k)).toNat) t))

/-- The frame of all 47 commands: 20_memory.md's table of the eight spaces, 10_state.md on DEG and on the command stream. -/
def Obligations.EachCommandWritesOnlyItsSpaces : Prop :=
  ∀ (i : Instr) (s t : State), exec i s = .next t →
    (i.mnemonic ∉ ["CF.GEN", "CF.SET", "RST"] → t.deg = s.deg) ∧
    (i.mnemonic ∉ ["CF.GEN", "CF.SET", "CF.WR", "RST"] → t.coef = s.coef) ∧
    (i.mnemonic ∉ ["RM.INIT", "RM.STEP", "RS.REM", "CF.GEN", "CF.SET", "RST"] → t.rem = s.rem) ∧
    (i.mnemonic ∉ ["CW.PUSH", "CW.CLR", "AS.PACK", "RST"] → t.cw = s.cw) ∧
    (i.mnemonic ∉ ["TX.PUSH", "TX.CLR", "RST"] → t.tx = s.tx) ∧
    (i.mnemonic ∉ ["BB.APP", "BB.CLR", "AS.CAT", "AS.TERM", "AS.ALIGN", "AS.PAD", "RST"] → t.bb = s.bb) ∧
    (i.mnemonic ∉ ["SG.NUM", "SG.ALN", "SG.BYT", "SG.CLR", "RST"] → t.seg = s.seg) ∧
    (i.mnemonic ∉ ["FM.SYN", "FM.COR", "RST"] → t.syn = s.syn) ∧
    (i.mnemonic ∉ ["FM.COR", "RST"] → t.sigma = s.sigma) ∧
    t.cmds = s.cmds ∧ t.idx = s.idx

/-- R322 (60_exceptions.md), and the rule of 10_state.md R23 on STICKY. -/
def Obligations.FailingCommandChangesNothingElse : Prop :=
  ∀ (i : Instr) (s t : State), exec i s = .next t →
    (t.status.code ≠ .ok → t = failed t.status.code s) ∧
    (t.status.code = .ok → t.status.sticky = if i = .stClr ∨ i = .rst then false else s.status.sticky)

/-- R321, R324 (60_exceptions.md): the column 'raised by'. -/
def Obligations.CommandsRaiseOnlyTheirCodes : Prop :=
  ∀ (i : Instr) (s t : State), exec i s = .next t →
    t.status.code ≠ .illegalCmd ∧
    (t.status.code = .badOperand → i.mnemonic ∈
      ["RG.RD", "GF4.MUL", "GF4.EXP", "GF4.LOG", "BB.APP", "BB.RD", "SG.RD", "CF.GEN", "CF.SET", "CF.WR", "CF.RD",
       "RM.RD", "RS.REM", "CW.RD", "SG.TOT", "AS.CAT", "AS.TERM", "AS.PAD", "FM.ENC", "FM.DEC", "FM.SYN", "FM.COR",
       "VR.ENC", "SY.RD", "LC.RD", "LC.EVAL"]) ∧
    (t.status.code = .badState → i.mnemonic ∈ ["RM.INIT", "RM.STEP", "RS.REM", "AS.PAD", "AS.PACK"]) ∧
    (t.status.code = .overflow → i.mnemonic ∈
      ["BB.APP", "TX.PUSH", "CW.PUSH", "SG.NUM", "SG.ALN", "SG.BYT", "AS.CAT", "AS.PACK"]) ∧
    (t.status.code = .segCharset → i.mnemonic ∈ ["SG.NUM", "SG.ALN"]) ∧
    (t.status.code = .segEmpty → i.mnemonic = "SG.BYT") ∧
    (t.status.code = .capacity → i.mnemonic ∈ ["SG.TOT", "AS.CAT", "AS.TERM", "AS.PAD"]) ∧
    (t.status.code = .formatEcc → i.mnemonic ∈ ["FM.DEC", "FM.COR"]) ∧
    (t.status.code = .versionEcc → i.mnemonic = "VR.DEC") ∧
    (i.mnemonic ∈ ["NOP", "RST", "ST.CLR", "GF8.MUL", "GF8.EXP", "GF8.LOG", "BB.CLR", "TX.CLR", "SG.CLR", "CW.CLR",
        "AS.ALIGN", "MK.BIT"] → t.status.code = .ok)

/-- 10_state.md section 2: "No command reads STATUS as an input to its computation". RG.RD 1 returns STATUS itself and is left out. -/
def Obligations.StatusIsNoInput : Prop :=
  ∀ (i : Instr) (s t : State) (st : Status), i ≠ .rgRd 1 → exec i s = .next t →
    ∃ sticky : Bool, exec i { s with status := st } =
      .next { t with status := { code := t.status.code, sticky := sticky } }

/-- 60_exceptions.md section 1 (R320) says this of every reachable state; that the other states answer too is the model's choice
(log entry 11). The index moves on by one (10_state.md R22), and RES is 0 after a failure (60_exceptions.md R322). -/
def Obligations.EveryPresentedWordEndsInANextState : Prop :=
  ∀ (s : State) (c : Word), s.cmds[s.idx]? = some c →
    ∃ t : State, step s = .next t ∧ t.idx = s.idx + 1 ∧ t.cmds = s.cmds ∧
      (t.response.code).toNat ≤ 9 ∧ (t.response.code ≠ 0 → t.response.res = 0)

/-- 10_state.md section 7: the invariants, kept by every step. -/
def Obligations.StepKeepsInvariants : Prop :=
  ∀ s t : State, Inv s → step s = .next t → Inv t

/-- R40 (10_state.md), R350 (70_reset_and_hazards.md). The empty command stream is the model's choice (log entry 3) and no part of the rule. -/
def Obligations.ResetStateValues : Prop :=
  State.reset.res = 0 ∧ statusWord State.reset.status = 0 ∧ State.reset.deg = 0 ∧
  State.reset.coef = [] ∧ State.reset.rem = [] ∧ State.reset.cw = [] ∧ State.reset.tx = [] ∧
  State.reset.bb = [] ∧ State.reset.seg = [] ∧ State.reset.syn.toList = List.replicate 6 0 ∧
  State.reset.sigma.toList = List.replicate Config.maxPoly 0 ∧ Inv State.reset

/-- 70_reset_and_hazards.md section 2: the sticky flag as the summary of a sequence; the spec's inference. -/
def Obligations.StickyFlagCertifiesRun : Prop :=
  ∀ (ws : List Word) (s : State), s.status.sticky = false →
    (∀ w ∈ ws, w ≠ encode .stClr ∧ w ≠ encode .rst) →
    (runWords ws s).2.length = ws.length ∧
    ((runWords ws s).1.status.sticky = false ↔ ∀ r ∈ (runWords ws s).2, r.code = 0)

/-- 70_reset_and_hazards.md section 4: a run of n commands ends after n steps. The stop after the list is the model's choice (log entry 4). -/
def Obligations.RunIsStepByStep : Prop :=
  ∀ (ws : List Word) (s : State),
    Host.Core.run Sys2Proof.core ws.length (s.load ws) =
      .next { (runWords ws s).1 with cmds := ws, idx := ws.length } ∧
    step { (runWords ws s).1 with cmds := ws, idx := ws.length } = .fault .noCommand
end

