-- ==== Sys2Proof/Laws/State.lean ====
section
/-! SUPPORT. What each state update does to each field: one lemma per field per update, true by unfolding, so that no later
proof unfolds a record update. -/

namespace Sys2Proof.Machine

/-! ### `okState` -/

@[simp] theorem okState_res (v : Word) (s : State) : (okState v s).res = v := rfl
@[simp] theorem okState_status (v : Word) (s : State) : (okState v s).status = statusAfterOk s.status := rfl
@[simp] theorem okState_deg (v : Word) (s : State) : (okState v s).deg = s.deg := rfl
@[simp] theorem okState_coef (v : Word) (s : State) : (okState v s).coef = s.coef := rfl
@[simp] theorem okState_rem (v : Word) (s : State) : (okState v s).rem = s.rem := rfl
@[simp] theorem okState_cw (v : Word) (s : State) : (okState v s).cw = s.cw := rfl
@[simp] theorem okState_tx (v : Word) (s : State) : (okState v s).tx = s.tx := rfl
@[simp] theorem okState_bb (v : Word) (s : State) : (okState v s).bb = s.bb := rfl
@[simp] theorem okState_seg (v : Word) (s : State) : (okState v s).seg = s.seg := rfl
@[simp] theorem okState_syn (v : Word) (s : State) : (okState v s).syn = s.syn := rfl
@[simp] theorem okState_sigma (v : Word) (s : State) : (okState v s).sigma = s.sigma := rfl
@[simp] theorem okState_cmds (v : Word) (s : State) : (okState v s).cmds = s.cmds := rfl
@[simp] theorem okState_idx (v : Word) (s : State) : (okState v s).idx = s.idx := rfl

/-! ### `failState` -/

@[simp] theorem failState_res (k : Code) (s : State) : (failState k s).res = 0 := rfl
@[simp] theorem failState_status (k : Code) (s : State) : (failState k s).status = statusAfterFail k := rfl
@[simp] theorem failState_deg (k : Code) (s : State) : (failState k s).deg = s.deg := rfl
@[simp] theorem failState_coef (k : Code) (s : State) : (failState k s).coef = s.coef := rfl
@[simp] theorem failState_rem (k : Code) (s : State) : (failState k s).rem = s.rem := rfl
@[simp] theorem failState_cw (k : Code) (s : State) : (failState k s).cw = s.cw := rfl
@[simp] theorem failState_tx (k : Code) (s : State) : (failState k s).tx = s.tx := rfl
@[simp] theorem failState_bb (k : Code) (s : State) : (failState k s).bb = s.bb := rfl
@[simp] theorem failState_seg (k : Code) (s : State) : (failState k s).seg = s.seg := rfl
@[simp] theorem failState_syn (k : Code) (s : State) : (failState k s).syn = s.syn := rfl
@[simp] theorem failState_sigma (k : Code) (s : State) : (failState k s).sigma = s.sigma := rfl
@[simp] theorem failState_cmds (k : Code) (s : State) : (failState k s).cmds = s.cmds := rfl
@[simp] theorem failState_idx (k : Code) (s : State) : (failState k s).idx = s.idx := rfl

/-! ### `setStatus` -/

@[simp] theorem setStatus_res (x : Status) (s : State) : (setStatus x s).res = s.res := rfl
@[simp] theorem setStatus_status (x : Status) (s : State) : (setStatus x s).status = x := rfl
@[simp] theorem setStatus_deg (x : Status) (s : State) : (setStatus x s).deg = s.deg := rfl
@[simp] theorem setStatus_coef (x : Status) (s : State) : (setStatus x s).coef = s.coef := rfl
@[simp] theorem setStatus_rem (x : Status) (s : State) : (setStatus x s).rem = s.rem := rfl
@[simp] theorem setStatus_cw (x : Status) (s : State) : (setStatus x s).cw = s.cw := rfl
@[simp] theorem setStatus_tx (x : Status) (s : State) : (setStatus x s).tx = s.tx := rfl
@[simp] theorem setStatus_bb (x : Status) (s : State) : (setStatus x s).bb = s.bb := rfl
@[simp] theorem setStatus_seg (x : Status) (s : State) : (setStatus x s).seg = s.seg := rfl
@[simp] theorem setStatus_syn (x : Status) (s : State) : (setStatus x s).syn = s.syn := rfl
@[simp] theorem setStatus_sigma (x : Status) (s : State) : (setStatus x s).sigma = s.sigma := rfl
@[simp] theorem setStatus_cmds (x : Status) (s : State) : (setStatus x s).cmds = s.cmds := rfl
@[simp] theorem setStatus_idx (x : Status) (s : State) : (setStatus x s).idx = s.idx := rfl

/-! ### `setCoef` -/

@[simp] theorem setCoef_res (x : List Byte) (s : State) : (setCoef x s).res = s.res := rfl
@[simp] theorem setCoef_status (x : List Byte) (s : State) : (setCoef x s).status = s.status := rfl
@[simp] theorem setCoef_deg (x : List Byte) (s : State) : (setCoef x s).deg = s.deg := rfl
@[simp] theorem setCoef_coef (x : List Byte) (s : State) : (setCoef x s).coef = x := rfl
@[simp] theorem setCoef_rem (x : List Byte) (s : State) : (setCoef x s).rem = s.rem := rfl
@[simp] theorem setCoef_cw (x : List Byte) (s : State) : (setCoef x s).cw = s.cw := rfl
@[simp] theorem setCoef_tx (x : List Byte) (s : State) : (setCoef x s).tx = s.tx := rfl
@[simp] theorem setCoef_bb (x : List Byte) (s : State) : (setCoef x s).bb = s.bb := rfl
@[simp] theorem setCoef_seg (x : List Byte) (s : State) : (setCoef x s).seg = s.seg := rfl
@[simp] theorem setCoef_syn (x : List Byte) (s : State) : (setCoef x s).syn = s.syn := rfl
@[simp] theorem setCoef_sigma (x : List Byte) (s : State) : (setCoef x s).sigma = s.sigma := rfl
@[simp] theorem setCoef_cmds (x : List Byte) (s : State) : (setCoef x s).cmds = s.cmds := rfl
@[simp] theorem setCoef_idx (x : List Byte) (s : State) : (setCoef x s).idx = s.idx := rfl

/-! ### `setRem` -/

@[simp] theorem setRem_res (x : List Byte) (s : State) : (setRem x s).res = s.res := rfl
@[simp] theorem setRem_status (x : List Byte) (s : State) : (setRem x s).status = s.status := rfl
@[simp] theorem setRem_deg (x : List Byte) (s : State) : (setRem x s).deg = s.deg := rfl
@[simp] theorem setRem_coef (x : List Byte) (s : State) : (setRem x s).coef = s.coef := rfl
@[simp] theorem setRem_rem (x : List Byte) (s : State) : (setRem x s).rem = x := rfl
@[simp] theorem setRem_cw (x : List Byte) (s : State) : (setRem x s).cw = s.cw := rfl
@[simp] theorem setRem_tx (x : List Byte) (s : State) : (setRem x s).tx = s.tx := rfl
@[simp] theorem setRem_bb (x : List Byte) (s : State) : (setRem x s).bb = s.bb := rfl
@[simp] theorem setRem_seg (x : List Byte) (s : State) : (setRem x s).seg = s.seg := rfl
@[simp] theorem setRem_syn (x : List Byte) (s : State) : (setRem x s).syn = s.syn := rfl
@[simp] theorem setRem_sigma (x : List Byte) (s : State) : (setRem x s).sigma = s.sigma := rfl
@[simp] theorem setRem_cmds (x : List Byte) (s : State) : (setRem x s).cmds = s.cmds := rfl
@[simp] theorem setRem_idx (x : List Byte) (s : State) : (setRem x s).idx = s.idx := rfl

/-! ### `setCw` -/

@[simp] theorem setCw_res (x : List Byte) (s : State) : (setCw x s).res = s.res := rfl
@[simp] theorem setCw_status (x : List Byte) (s : State) : (setCw x s).status = s.status := rfl
@[simp] theorem setCw_deg (x : List Byte) (s : State) : (setCw x s).deg = s.deg := rfl
@[simp] theorem setCw_coef (x : List Byte) (s : State) : (setCw x s).coef = s.coef := rfl
@[simp] theorem setCw_rem (x : List Byte) (s : State) : (setCw x s).rem = s.rem := rfl
@[simp] theorem setCw_cw (x : List Byte) (s : State) : (setCw x s).cw = x := rfl
@[simp] theorem setCw_tx (x : List Byte) (s : State) : (setCw x s).tx = s.tx := rfl
@[simp] theorem setCw_bb (x : List Byte) (s : State) : (setCw x s).bb = s.bb := rfl
@[simp] theorem setCw_seg (x : List Byte) (s : State) : (setCw x s).seg = s.seg := rfl
@[simp] theorem setCw_syn (x : List Byte) (s : State) : (setCw x s).syn = s.syn := rfl
@[simp] theorem setCw_sigma (x : List Byte) (s : State) : (setCw x s).sigma = s.sigma := rfl
@[simp] theorem setCw_cmds (x : List Byte) (s : State) : (setCw x s).cmds = s.cmds := rfl
@[simp] theorem setCw_idx (x : List Byte) (s : State) : (setCw x s).idx = s.idx := rfl

/-! ### `setTx` -/

@[simp] theorem setTx_res (x : List Byte) (s : State) : (setTx x s).res = s.res := rfl
@[simp] theorem setTx_status (x : List Byte) (s : State) : (setTx x s).status = s.status := rfl
@[simp] theorem setTx_deg (x : List Byte) (s : State) : (setTx x s).deg = s.deg := rfl
@[simp] theorem setTx_coef (x : List Byte) (s : State) : (setTx x s).coef = s.coef := rfl
@[simp] theorem setTx_rem (x : List Byte) (s : State) : (setTx x s).rem = s.rem := rfl
@[simp] theorem setTx_cw (x : List Byte) (s : State) : (setTx x s).cw = s.cw := rfl
@[simp] theorem setTx_tx (x : List Byte) (s : State) : (setTx x s).tx = x := rfl
@[simp] theorem setTx_bb (x : List Byte) (s : State) : (setTx x s).bb = s.bb := rfl
@[simp] theorem setTx_seg (x : List Byte) (s : State) : (setTx x s).seg = s.seg := rfl
@[simp] theorem setTx_syn (x : List Byte) (s : State) : (setTx x s).syn = s.syn := rfl
@[simp] theorem setTx_sigma (x : List Byte) (s : State) : (setTx x s).sigma = s.sigma := rfl
@[simp] theorem setTx_cmds (x : List Byte) (s : State) : (setTx x s).cmds = s.cmds := rfl
@[simp] theorem setTx_idx (x : List Byte) (s : State) : (setTx x s).idx = s.idx := rfl

/-! ### `setBb` -/

@[simp] theorem setBb_res (x : List Bool) (s : State) : (setBb x s).res = s.res := rfl
@[simp] theorem setBb_status (x : List Bool) (s : State) : (setBb x s).status = s.status := rfl
@[simp] theorem setBb_deg (x : List Bool) (s : State) : (setBb x s).deg = s.deg := rfl
@[simp] theorem setBb_coef (x : List Bool) (s : State) : (setBb x s).coef = s.coef := rfl
@[simp] theorem setBb_rem (x : List Bool) (s : State) : (setBb x s).rem = s.rem := rfl
@[simp] theorem setBb_cw (x : List Bool) (s : State) : (setBb x s).cw = s.cw := rfl
@[simp] theorem setBb_tx (x : List Bool) (s : State) : (setBb x s).tx = s.tx := rfl
@[simp] theorem setBb_bb (x : List Bool) (s : State) : (setBb x s).bb = x := rfl
@[simp] theorem setBb_seg (x : List Bool) (s : State) : (setBb x s).seg = s.seg := rfl
@[simp] theorem setBb_syn (x : List Bool) (s : State) : (setBb x s).syn = s.syn := rfl
@[simp] theorem setBb_sigma (x : List Bool) (s : State) : (setBb x s).sigma = s.sigma := rfl
@[simp] theorem setBb_cmds (x : List Bool) (s : State) : (setBb x s).cmds = s.cmds := rfl
@[simp] theorem setBb_idx (x : List Bool) (s : State) : (setBb x s).idx = s.idx := rfl

/-! ### `setSeg` -/

@[simp] theorem setSeg_res (x : List Segment) (s : State) : (setSeg x s).res = s.res := rfl
@[simp] theorem setSeg_status (x : List Segment) (s : State) : (setSeg x s).status = s.status := rfl
@[simp] theorem setSeg_deg (x : List Segment) (s : State) : (setSeg x s).deg = s.deg := rfl
@[simp] theorem setSeg_coef (x : List Segment) (s : State) : (setSeg x s).coef = s.coef := rfl
@[simp] theorem setSeg_rem (x : List Segment) (s : State) : (setSeg x s).rem = s.rem := rfl
@[simp] theorem setSeg_cw (x : List Segment) (s : State) : (setSeg x s).cw = s.cw := rfl
@[simp] theorem setSeg_tx (x : List Segment) (s : State) : (setSeg x s).tx = s.tx := rfl
@[simp] theorem setSeg_bb (x : List Segment) (s : State) : (setSeg x s).bb = s.bb := rfl
@[simp] theorem setSeg_seg (x : List Segment) (s : State) : (setSeg x s).seg = x := rfl
@[simp] theorem setSeg_syn (x : List Segment) (s : State) : (setSeg x s).syn = s.syn := rfl
@[simp] theorem setSeg_sigma (x : List Segment) (s : State) : (setSeg x s).sigma = s.sigma := rfl
@[simp] theorem setSeg_cmds (x : List Segment) (s : State) : (setSeg x s).cmds = s.cmds := rfl
@[simp] theorem setSeg_idx (x : List Segment) (s : State) : (setSeg x s).idx = s.idx := rfl

/-! ### `setSyn` -/

@[simp] theorem setSyn_res (x : Vector Nibble 6) (s : State) : (setSyn x s).res = s.res := rfl
@[simp] theorem setSyn_status (x : Vector Nibble 6) (s : State) : (setSyn x s).status = s.status := rfl
@[simp] theorem setSyn_deg (x : Vector Nibble 6) (s : State) : (setSyn x s).deg = s.deg := rfl
@[simp] theorem setSyn_coef (x : Vector Nibble 6) (s : State) : (setSyn x s).coef = s.coef := rfl
@[simp] theorem setSyn_rem (x : Vector Nibble 6) (s : State) : (setSyn x s).rem = s.rem := rfl
@[simp] theorem setSyn_cw (x : Vector Nibble 6) (s : State) : (setSyn x s).cw = s.cw := rfl
@[simp] theorem setSyn_tx (x : Vector Nibble 6) (s : State) : (setSyn x s).tx = s.tx := rfl
@[simp] theorem setSyn_bb (x : Vector Nibble 6) (s : State) : (setSyn x s).bb = s.bb := rfl
@[simp] theorem setSyn_seg (x : Vector Nibble 6) (s : State) : (setSyn x s).seg = s.seg := rfl
@[simp] theorem setSyn_syn (x : Vector Nibble 6) (s : State) : (setSyn x s).syn = x := rfl
@[simp] theorem setSyn_sigma (x : Vector Nibble 6) (s : State) : (setSyn x s).sigma = s.sigma := rfl
@[simp] theorem setSyn_cmds (x : Vector Nibble 6) (s : State) : (setSyn x s).cmds = s.cmds := rfl
@[simp] theorem setSyn_idx (x : Vector Nibble 6) (s : State) : (setSyn x s).idx = s.idx := rfl

/-! ### `setSigma` -/

@[simp] theorem setSigma_res (x : Vector Nibble Config.maxPoly) (s : State) : (setSigma x s).res = s.res := rfl
@[simp] theorem setSigma_status (x : Vector Nibble Config.maxPoly) (s : State) : (setSigma x s).status = s.status := rfl
@[simp] theorem setSigma_deg (x : Vector Nibble Config.maxPoly) (s : State) : (setSigma x s).deg = s.deg := rfl
@[simp] theorem setSigma_coef (x : Vector Nibble Config.maxPoly) (s : State) : (setSigma x s).coef = s.coef := rfl
@[simp] theorem setSigma_rem (x : Vector Nibble Config.maxPoly) (s : State) : (setSigma x s).rem = s.rem := rfl
@[simp] theorem setSigma_cw (x : Vector Nibble Config.maxPoly) (s : State) : (setSigma x s).cw = s.cw := rfl
@[simp] theorem setSigma_tx (x : Vector Nibble Config.maxPoly) (s : State) : (setSigma x s).tx = s.tx := rfl
@[simp] theorem setSigma_bb (x : Vector Nibble Config.maxPoly) (s : State) : (setSigma x s).bb = s.bb := rfl
@[simp] theorem setSigma_seg (x : Vector Nibble Config.maxPoly) (s : State) : (setSigma x s).seg = s.seg := rfl
@[simp] theorem setSigma_syn (x : Vector Nibble Config.maxPoly) (s : State) : (setSigma x s).syn = s.syn := rfl
@[simp] theorem setSigma_sigma (x : Vector Nibble Config.maxPoly) (s : State) : (setSigma x s).sigma = x := rfl
@[simp] theorem setSigma_cmds (x : Vector Nibble Config.maxPoly) (s : State) : (setSigma x s).cmds = s.cmds := rfl
@[simp] theorem setSigma_idx (x : Vector Nibble Config.maxPoly) (s : State) : (setSigma x s).idx = s.idx := rfl

/-! ### `loadDivisor` -/

@[simp] theorem loadDivisor_res (d : Byte) (c : List Byte) (s : State) : (loadDivisor d c s).res = s.res := rfl
@[simp] theorem loadDivisor_status (d : Byte) (c : List Byte) (s : State) : (loadDivisor d c s).status = s.status := rfl
@[simp] theorem loadDivisor_deg (d : Byte) (c : List Byte) (s : State) : (loadDivisor d c s).deg = d := rfl
@[simp] theorem loadDivisor_coef (d : Byte) (c : List Byte) (s : State) : (loadDivisor d c s).coef = c := rfl
@[simp] theorem loadDivisor_rem (d : Byte) (c : List Byte) (s : State) : (loadDivisor d c s).rem = List.replicate d.toNat 0 := rfl
@[simp] theorem loadDivisor_cw (d : Byte) (c : List Byte) (s : State) : (loadDivisor d c s).cw = s.cw := rfl
@[simp] theorem loadDivisor_tx (d : Byte) (c : List Byte) (s : State) : (loadDivisor d c s).tx = s.tx := rfl
@[simp] theorem loadDivisor_bb (d : Byte) (c : List Byte) (s : State) : (loadDivisor d c s).bb = s.bb := rfl
@[simp] theorem loadDivisor_seg (d : Byte) (c : List Byte) (s : State) : (loadDivisor d c s).seg = s.seg := rfl
@[simp] theorem loadDivisor_syn (d : Byte) (c : List Byte) (s : State) : (loadDivisor d c s).syn = s.syn := rfl
@[simp] theorem loadDivisor_sigma (d : Byte) (c : List Byte) (s : State) : (loadDivisor d c s).sigma = s.sigma := rfl
@[simp] theorem loadDivisor_cmds (d : Byte) (c : List Byte) (s : State) : (loadDivisor d c s).cmds = s.cmds := rfl
@[simp] theorem loadDivisor_idx (d : Byte) (c : List Byte) (s : State) : (loadDivisor d c s).idx = s.idx := rfl

/-! ### `advance` -/

@[simp] theorem advance_res (s : State) : (advance s).res = s.res := rfl
@[simp] theorem advance_status (s : State) : (advance s).status = s.status := rfl
@[simp] theorem advance_deg (s : State) : (advance s).deg = s.deg := rfl
@[simp] theorem advance_coef (s : State) : (advance s).coef = s.coef := rfl
@[simp] theorem advance_rem (s : State) : (advance s).rem = s.rem := rfl
@[simp] theorem advance_cw (s : State) : (advance s).cw = s.cw := rfl
@[simp] theorem advance_tx (s : State) : (advance s).tx = s.tx := rfl
@[simp] theorem advance_bb (s : State) : (advance s).bb = s.bb := rfl
@[simp] theorem advance_seg (s : State) : (advance s).seg = s.seg := rfl
@[simp] theorem advance_syn (s : State) : (advance s).syn = s.syn := rfl
@[simp] theorem advance_sigma (s : State) : (advance s).sigma = s.sigma := rfl
@[simp] theorem advance_cmds (s : State) : (advance s).cmds = s.cmds := rfl
@[simp] theorem advance_idx (s : State) : (advance s).idx = s.idx + 1 := rfl

/-! ### `resetCore` -/

@[simp] theorem resetCore_res (s : State) : (resetCore s).res = State.reset.res := rfl
@[simp] theorem resetCore_status (s : State) : (resetCore s).status = State.reset.status := rfl
@[simp] theorem resetCore_deg (s : State) : (resetCore s).deg = State.reset.deg := rfl
@[simp] theorem resetCore_coef (s : State) : (resetCore s).coef = State.reset.coef := rfl
@[simp] theorem resetCore_rem (s : State) : (resetCore s).rem = State.reset.rem := rfl
@[simp] theorem resetCore_cw (s : State) : (resetCore s).cw = State.reset.cw := rfl
@[simp] theorem resetCore_tx (s : State) : (resetCore s).tx = State.reset.tx := rfl
@[simp] theorem resetCore_bb (s : State) : (resetCore s).bb = State.reset.bb := rfl
@[simp] theorem resetCore_seg (s : State) : (resetCore s).seg = State.reset.seg := rfl
@[simp] theorem resetCore_syn (s : State) : (resetCore s).syn = State.reset.syn := rfl
@[simp] theorem resetCore_sigma (s : State) : (resetCore s).sigma = State.reset.sigma := rfl
@[simp] theorem resetCore_cmds (s : State) : (resetCore s).cmds = s.cmds := rfl
@[simp] theorem resetCore_idx (s : State) : (resetCore s).idx = s.idx := rfl

end Sys2Proof.Machine
end

