-- ==== Sys2Proof/Laws/Ops.lean ====
section
/-! SUPPORT. One lemma per shared operation that says everything it can answer; later proofs cite these and unfold no operation. -/

namespace Sys2Proof.Machine

theorem ok_next {v : Word} {s t : State} : ok v s = .next t ↔ t = okState v s := by
  simp [ok, eq_comm]

theorem fail_next {k : Code} {s t : State} : fail k s = .next t ↔ t = failState k s := by
  simp [fail, eq_comm]

/-- `readAt` answers the element, or `BAD_OPERAND` at and beyond the length. -/
theorem readAt_cases {α : Type} (buf : List α) (i : Nat) (f : α → Word) (s : State) :
    (∃ h : i < buf.length, readAt buf i f s = ok (f buf[i]) s) ∨
    (buf.length ≤ i ∧ readAt buf i f s = fail .badOperand s) := by
  by_cases h : i < buf.length
  · exact .inl ⟨h, by simp [readAt, h]⟩
  · exact .inr ⟨by omega, by simp [readAt, List.getElem?_eq_none (by omega : buf.length ≤ i)]⟩

/-- `endWithBb` always succeeds, with the new length in `RES`. -/
theorem endWithBb_next {bits : List Bool} {s t : State} :
    endWithBb bits s = .next t ↔ t = okState (natWord bits.length) (setBb bits s) := ok_next

/-- `build` fails with one of three codes, or appends one record. -/
theorem build_cases (f : List Byte → Segment) (cs : Byte → Bool) (eo : Bool) (s : State) :
    (build f cs eo s = fail .overflow s ∧
      (s.seg.length = Config.segMax ∨ Config.bbMax < payloadBits s.seg + (f s.tx).bits.length)) ∨
    (build f cs eo s = fail .segEmpty s ∧ eo = false ∧ s.tx = []) ∨
    (build f cs eo s = fail .segCharset s ∧ s.tx.all cs = false) ∨
    (build f cs eo s = ok (natWord (f s.tx).bits.length) (setSeg (s.seg ++ [f s.tx]) s) ∧
      s.seg.length ≠ Config.segMax ∧ (eo = true ∨ s.tx ≠ []) ∧ s.tx.all cs = true ∧
      payloadBits s.seg + (f s.tx).bits.length ≤ Config.bbMax) := by
  unfold build
  split
  · next h => exact .inl ⟨rfl, .inl h⟩
  · next h1 =>
    split
    · next h => exact .inr (.inl ⟨rfl, by simpa using h⟩)
    · next h2 =>
      split
      · next h => exact .inr (.inr (.inl ⟨rfl, by simpa using h⟩))
      · next h3 =>
        split
        · next h => exact .inl ⟨rfl, .inr h⟩
        · next h4 =>
          refine .inr (.inr (.inr ⟨rfl, h1, ?_, by simpa using h3, by omega⟩))
          cases eo <;> simp_all

/-- `loadDegree` refuses a degree outside 1..`DEG_MAX`, or loads the divisor. -/
theorem loadDegree_cases (c : Nat → List Byte) (d : BitVec 8) (s : State) :
    (loadDegree c d s = fail .badOperand s ∧ (d.toNat = 0 ∨ Config.degMax < d.toNat)) ∨
    (loadDegree c d s = ok (zext d) (loadDivisor d (c d.toNat) s) ∧ 1 ≤ d.toNat ∧ d.toNat ≤ Config.degMax) := by
  unfold loadDegree
  split
  · next h => exact .inl ⟨rfl, h⟩
  · next h => exact .inr ⟨rfl, by omega, by omega⟩

end Sys2Proof.Machine
end

