-- ==== Sys2Proof/Laws/Commands.lean ====
section
/-! SUPPORT. What each command that branches can answer: one lemma per command, its failures with their codes and its success with
what it writes. The commands without a branch (NOP, RST, ST.CLR, GF8.*, BB.CLR, TX.CLR, SG.CLR, CW.CLR, AS.ALIGN, MK.BIT) are
their own law. Then the nearest-match decoder and the step. -/

namespace Sys2Proof.Machine

open Sys2Proof

/-! ## Commands that write no buffer -/

theorem execRgRd_cases (k : BitVec 8) (s : State) :
    execRgRd k s = fail .badOperand s ∨ ∃ v, execRgRd k s = ok v s := by
  unfold execRgRd; split
  · exact .inr ⟨_, rfl⟩
  · exact .inl rfl

theorem execGf4Mul_cases (a b : BitVec 8) (s : State) :
    execGf4Mul a b s = fail .badOperand s ∨ ∃ v, execGf4Mul a b s = ok v s := by
  unfold execGf4Mul; split
  · exact .inl rfl
  · exact .inr ⟨_, rfl⟩

theorem execGf4Exp_cases (i : BitVec 8) (s : State) :
    execGf4Exp i s = fail .badOperand s ∨ ∃ v, execGf4Exp i s = ok v s := by
  unfold execGf4Exp; split
  · exact .inl rfl
  · exact .inr ⟨_, rfl⟩

theorem execGf4Log_cases (a : BitVec 8) (s : State) :
    execGf4Log a s = fail .badOperand s ∨ ∃ v, execGf4Log a s = ok v s := by
  unfold execGf4Log; split
  · exact .inl rfl
  · exact .inr ⟨_, rfl⟩

theorem readAt_fail_or_ok {α : Type} (buf : List α) (i : Nat) (f : α → Word) (s : State) :
    readAt buf i f s = fail .badOperand s ∨ ∃ v, readAt buf i f s = ok v s := by
  rcases readAt_cases buf i f s with ⟨h, he⟩ | ⟨-, he⟩
  · exact .inr ⟨_, he⟩
  · exact .inl he

theorem execBbRd_cases (i : BitVec 16) (s : State) :
    execBbRd i s = fail .badOperand s ∨ ∃ v, execBbRd i s = ok v s := readAt_fail_or_ok ..

theorem execSgRd_cases (i : BitVec 16) (k : BitVec 2) (s : State) :
    execSgRd i k s = fail .badOperand s ∨ ∃ v, execSgRd i k s = ok v s := by
  unfold execSgRd; split
  · exact .inl rfl
  · exact readAt_fail_or_ok ..

theorem execCfRd_cases (i : BitVec 16) (s : State) :
    execCfRd i s = fail .badOperand s ∨ ∃ v, execCfRd i s = ok v s := by
  unfold execCfRd; split
  · exact .inl rfl
  · exact readAt_fail_or_ok ..

theorem execRmRd_cases (i : BitVec 16) (s : State) :
    execRmRd i s = fail .badOperand s ∨ ∃ v, execRmRd i s = ok v s := by
  unfold execRmRd; split
  · exact .inl rfl
  · exact readAt_fail_or_ok ..

theorem execCwRd_cases (i : BitVec 16) (s : State) :
    execCwRd i s = fail .badOperand s ∨ ∃ v, execCwRd i s = ok v s := readAt_fail_or_ok ..

theorem execSgTot_cases (ver : BitVec 8) (s : State) :
    execSgTot ver s = fail .badOperand s ∨ execSgTot ver s = fail .capacity s ∨ ∃ v, execSgTot ver s = ok v s := by
  unfold execSgTot; split
  · exact .inl rfl
  · split
    · exact .inr (.inl rfl)
    · exact .inr (.inr ⟨_, rfl⟩)

theorem execFmEnc_cases (f : BitVec 8) (s : State) :
    execFmEnc f s = fail .badOperand s ∨ ∃ v, execFmEnc f s = ok v s := by
  unfold execFmEnc; split
  · exact .inl rfl
  · exact .inr ⟨_, rfl⟩

theorem execFmDec_cases (w : BitVec 18) (s : State) :
    execFmDec w s = fail .badOperand s ∨ execFmDec w s = fail .formatEcc s ∨ ∃ v, execFmDec w s = ok v s := by
  unfold execFmDec; split
  · exact .inl rfl
  · split
    · exact .inr (.inr ⟨_, rfl⟩)
    · exact .inr (.inl rfl)

theorem execVrEnc_cases (v : BitVec 8) (s : State) :
    execVrEnc v s = fail .badOperand s ∨ ∃ r, execVrEnc v s = ok r s := by
  unfold execVrEnc; split
  · exact .inl rfl
  · exact .inr ⟨_, rfl⟩

theorem execVrDec_cases (w : BitVec 18) (s : State) :
    execVrDec w s = fail .versionEcc s ∨ ∃ v, execVrDec w s = ok v s := by
  unfold execVrDec
  cases verDec w with
  | some v => exact .inr ⟨_, rfl⟩
  | none => exact .inl rfl

theorem execSyRd_cases (i : BitVec 16) (s : State) :
    execSyRd i s = fail .badOperand s ∨ ∃ v, execSyRd i s = ok v s := by
  unfold execSyRd; split
  · exact .inl rfl
  · exact readAt_fail_or_ok ..

theorem execLcRd_cases (i : BitVec 16) (s : State) :
    execLcRd i s = fail .badOperand s ∨ ∃ v, execLcRd i s = ok v s := by
  unfold execLcRd; split
  · exact .inl rfl
  · exact readAt_fail_or_ok ..

theorem execLcEval_cases (x : BitVec 8) (s : State) :
    execLcEval x s = fail .badOperand s ∨ ∃ v, execLcEval x s = ok v s := by
  unfold execLcEval; split
  · exact .inl rfl
  · exact .inr ⟨_, rfl⟩

/-! ## Commands that write one buffer -/

theorem execBbApp_cases (n : BitVec 5) (v : BitVec 16) (s : State) :
    execBbApp n v s = fail .badOperand s ∨ execBbApp n v s = fail .overflow s ∨
    (execBbApp n v s = endWithBb (bbAppend s.bb n.toNat v.toNat) s ∧
      n.toNat ≤ 16 ∧ v.toNat < 2 ^ n.toNat ∧ s.bb.length + n.toNat ≤ Config.bbMax) := by
  unfold execBbApp; split
  · exact .inl rfl
  · split
    · exact .inl rfl
    · split
      · exact .inr (.inl rfl)
      · exact .inr (.inr ⟨rfl, by omega, by omega, by omega⟩)

theorem execTxPush_cases (c : BitVec 8) (s : State) :
    execTxPush c s = fail .overflow s ∨
    (execTxPush c s = ok (natWord (s.tx.length + 1)) (setTx (s.tx ++ [c]) s) ∧ s.tx.length ≠ Config.txMax) := by
  unfold execTxPush; split
  · exact .inl rfl
  · next h => exact .inr ⟨rfl, h⟩

theorem execCwPush_cases (b : BitVec 8) (s : State) :
    execCwPush b s = fail .overflow s ∨
    (execCwPush b s = ok (natWord (s.cw.length + 1)) (setCw (s.cw ++ [b]) s) ∧ s.cw.length ≠ Config.cwMax) := by
  unfold execCwPush; split
  · exact .inl rfl
  · next h => exact .inr ⟨rfl, h⟩

theorem execCfWr_cases (i : BitVec 16) (v : BitVec 8) (s : State) :
    execCfWr i v s = fail .badOperand s ∨
    (execCfWr i v s = ok (zext v) (setCoef (s.coef.set i.toNat v) s) ∧ i.toNat < s.deg.toNat) := by
  unfold execCfWr; split
  · exact .inl rfl
  · exact .inr ⟨rfl, by omega⟩

theorem execRmInit_cases (s : State) :
    execRmInit s = fail .badState s ∨
    (execRmInit s = ok 0 (setRem (List.replicate s.deg.toNat 0) s) ∧ s.deg ≠ 0) := by
  unfold execRmInit; split
  · exact .inl rfl
  · next h => exact .inr ⟨rfl, h⟩

theorem execRmStep_cases (b : BitVec 8) (s : State) :
    execRmStep b s = fail .badState s ∨
    (execRmStep b s = ok (zext (rsStep s.rem s.coef b).2) (setRem (rsStep s.rem s.coef b).1 s) ∧ s.deg ≠ 0) := by
  unfold execRmStep; split
  · exact .inl rfl
  · next h => exact .inr ⟨rfl, h⟩

theorem execRsRem_cases (off len : BitVec 12) (s : State) :
    execRsRem off len s = fail .badOperand s ∨ execRsRem off len s = fail .badState s ∨
    (execRsRem off len s =
        ok (zext s.deg) (setRem (rsRem ((s.cw.drop off.toNat).take len.toNat) s.coef) s) ∧
      s.deg ≠ 0 ∧ off.toNat + len.toNat ≤ s.cw.length) := by
  unfold execRsRem; split
  · exact .inl rfl
  · split
    · exact .inr (.inl rfl)
    · next h => exact .inr (.inr ⟨rfl, h, by omega⟩)

theorem execAsCat_cases (ver : BitVec 8) (s : State) :
    execAsCat ver s = fail .badOperand s ∨ execAsCat ver s = fail .overflow s ∨ execAsCat ver s = fail .capacity s ∨
    (execAsCat ver s = endWithBb (asCat s.seg ver.toNat) s ∧ segTotal s.seg ver.toNat ≤ Config.bbMax) := by
  unfold execAsCat; split
  · exact .inl rfl
  · split
    · exact .inr (.inl rfl)
    · split
      · exact .inr (.inr (.inl rfl))
      · exact .inr (.inr (.inr ⟨rfl, by omega⟩))

theorem execAsTerm_cases (cap : BitVec 16) (s : State) :
    execAsTerm cap s = fail .badOperand s ∨ execAsTerm cap s = fail .capacity s ∨
    (execAsTerm cap s = endWithBb (s.bb ++ List.replicate (terminatorLength s.bb.length cap.toNat) false) s ∧
      8 * cap.toNat ≤ Config.bbMax ∧ s.bb.length ≤ 8 * cap.toNat) := by
  unfold execAsTerm; split
  · exact .inl rfl
  · split
    · exact .inr (.inl rfl)
    · exact .inr (.inr ⟨rfl, by omega, by omega⟩)

theorem execAsPad_cases (cap : BitVec 16) (s : State) :
    execAsPad cap s = fail .badOperand s ∨ execAsPad cap s = fail .badState s ∨ execAsPad cap s = fail .capacity s ∨
    (execAsPad cap s = endWithBb (s.bb ++ padBits ((8 * cap.toNat - s.bb.length) / 8)) s ∧
      8 * cap.toNat ≤ Config.bbMax ∧ s.bb.length % 8 = 0 ∧ s.bb.length ≤ 8 * cap.toNat) := by
  unfold execAsPad; split
  · exact .inl rfl
  · split
    · exact .inr (.inl rfl)
    · split
      · exact .inr (.inr (.inl rfl))
      · exact .inr (.inr (.inr ⟨rfl, by omega, by omega, by omega⟩))

theorem execAsPack_cases (s : State) :
    execAsPack s = fail .badState s ∨ execAsPack s = fail .overflow s ∨
    (execAsPack s = ok (natWord (s.bb.length / 8)) (setCw (packAll s.bb) s) ∧
      s.bb.length % 8 = 0 ∧ s.bb.length / 8 ≤ Config.cwMax) := by
  unfold execAsPack; split
  · exact .inl rfl
  · split
    · exact .inr (.inl rfl)
    · exact .inr (.inr ⟨rfl, by omega, by omega⟩)

theorem execFmSyn_cases (u : BitVec 18) (s : State) :
    execFmSyn u s = fail .badOperand s ∨
    (execFmSyn u s = ok (bitWord (synNonzero (fmtSyn (u.setWidth 15)))) (setSyn (fmtSyn (u.setWidth 15)) s) ∧
      u.toNat < 2 ^ 15) := by
  unfold execFmSyn; split
  · exact .inl rfl
  · exact .inr ⟨rfl, by omega⟩

theorem execFmCor_cases (w : BitVec 18) (s : State) :
    execFmCor w s = fail .badOperand s ∨ execFmCor w s = fail .formatEcc s ∨
    (∃ u' syn sigma, fmtCor (w.setWidth 15) = some (u', syn, sigma) ∧ w.toNat < 2 ^ 15 ∧
      execFmCor w s = ok (zext u') (setSigma (locatorArray sigma) (setSyn syn s))) := by
  unfold execFmCor; split
  · exact .inl rfl
  · split
    · next h => exact .inr (.inr ⟨_, _, _, h, by omega, rfl⟩)
    · exact .inr (.inl rfl)

/-! ## The nearest-match decoder (46 R223, R228) -/

theorem nearestMatch_of_unique {t : Nat} {d : Nat → Nat} {refs : List Nat} {r : Nat} (hn : refs.Nodup) (hr : r ∈ refs)
    (ht : d r < t) (hu : ∀ q ∈ refs, q ≠ r → d r < d q) : nearestMatch t d refs = some r := by
  have hmin : (refs.map d).min? = some (d r) := by
    rw [List.min?_eq_some_iff]
    refine ⟨List.mem_map_of_mem hr, fun b hb => ?_⟩
    obtain ⟨q, hq, rfl⟩ := List.mem_map.mp hb
    by_cases h : q = r
    · rw [h]
    · exact le_of_lt (hu q hq h)
  have hf : refs.filter (fun q => decide (d q = d r)) = [r] := by
    have hc : refs.filter (fun q => decide (d q = d r)) = refs.filter (fun q => decide (q = r)) := by
      refine List.filter_congr fun q hq => ?_
      by_cases h : q = r
      · simp [h]
      · have := hu q hq h
        simp [h]; omega
    rw [hc, List.filter_eq, List.count_eq_one_of_mem hn hr]; rfl
  simp only [nearestMatch, hmin, ht, if_true, hf]

theorem nearestMatch_eq_some {t : Nat} {d : Nat → Nat} {refs : List Nat} {r : Nat} (h : nearestMatch t d refs = some r) :
    r ∈ refs ∧ d r < t ∧ ∀ q ∈ refs, q ≠ r → d r < d q := by
  unfold nearestMatch at h
  split at h
  · exact absurd h (by simp)
  · next dmin hm =>
    split at h
    · next hlt =>
      split at h
      · next x hx =>
        obtain rfl : x = r := by simpa using h
        have hx' : x ∈ refs.filter (fun q => decide (d q = dmin)) := by rw [hx]; simp
        obtain ⟨hmem, hd⟩ := List.mem_filter.mp hx'
        have hd : d x = dmin := by simpa using hd
        refine ⟨hmem, hd ▸ hlt, fun q hq hne => ?_⟩
        have hle := (List.min?_eq_some_iff.mp hm).2 (d q) (List.mem_map_of_mem hq)
        refine lt_of_le_of_ne (hd ▸ hle) fun he => hne ?_
        have : q ∈ refs.filter (fun q => decide (d q = dmin)) := List.mem_filter.mpr ⟨hq, by simp [← he, hd]⟩
        rw [hx] at this; simpa using this
      · exact absurd h (by simp)
    · exact absurd h (by simp)

end Sys2Proof.Machine
end

