-- ==== Sys2Proof/Laws/Config.lean ====
section
/-! SUPPORT. The parameters of Config meet the constraints of 00_scope.md R8; the facts the machine's proofs need of them. -/

namespace Sys2Proof.Config

theorem admissible : Admissible degMax cwMax txMax bbMax segMax maxPoly := by
  unfold Admissible; decide

theorem bbMax_aligned : bbMax % 8 = 0 := admissible.2.2.2.1.1

theorem degMax_le : degMax ≤ 255 := admissible.1.2

theorem maxPoly_ge : 7 ≤ maxPoly := admissible.2.2.2.2.2

end Sys2Proof.Config
end

