-- ==== Sys2Proof/Laws/Operands.lean ====
section
/-! SUPPORT. What the bit-order helpers do: the bits of a field, the number of a bit list, the packing into codewords. -/

namespace Sys2Proof.Machine

@[simp] theorem bitsOf_length (n v : Nat) : (bitsOf n v).length = n := by
  induction n with
  | zero => rfl
  | succ n ih => simp [bitsOf, ih]

theorem bitsOf_getElem? (n v k : Nat) (hk : k < n) : (bitsOf n v)[k]? = some (v.testBit (n - 1 - k)) := by
  induction n generalizing k with
  | zero => omega
  | succ n ih =>
    cases k with
    | zero => simp [bitsOf]
    | succ k =>
      rw [bitsOf, List.getElem?_cons_succ, ih k (by omega)]
      congr 2; omega

theorem foldl_bits (bs : List Bool) (a : Nat) :
    bs.foldl (fun v b => 2 * v + b.toNat) a = a * 2 ^ bs.length + bitsToNat bs := by
  induction bs generalizing a with
  | nil => simp [bitsToNat]
  | cons b bs ih =>
    simp only [bitsToNat, List.foldl_cons, List.length_cons] at *
    rw [ih, ih (2 * 0 + b.toNat)]; ring

theorem bitsToNat_cons (b : Bool) (bs : List Bool) :
    bitsToNat (b :: bs) = b.toNat * 2 ^ bs.length + bitsToNat bs := by
  simpa [bitsToNat] using foldl_bits bs b.toNat

theorem bitsToNat_lt (bs : List Bool) : bitsToNat bs < 2 ^ bs.length := by
  induction bs with
  | nil => simp [bitsToNat]
  | cons b bs ih =>
    rw [bitsToNat_cons, List.length_cons, pow_succ]
    cases b <;> simp <;> omega

theorem bitsToNat_bitsOf (n v : Nat) : bitsToNat (bitsOf n v) = v % 2 ^ n := by
  induction n with
  | zero => simp [bitsOf, bitsToNat, Nat.mod_one]
  | succ n ih =>
    rw [bitsOf, bitsToNat_cons, bitsOf_length, ih, Nat.mod_pow_succ, Nat.testBit_eq_decide_div_mod_eq]
    have : v / 2 ^ n % 2 = 0 ∨ v / 2 ^ n % 2 = 1 := by omega
    rcases this with h | h <;> simp [h, Nat.add_comm]

@[simp] theorem packBytes_length (n : Nat) (bs : List Bool) : (packBytes n bs).length = n := by
  induction n generalizing bs with
  | zero => rfl
  | succ n ih => simp [packBytes, ih]

theorem packBytes_getElem? (n : Nat) (bs : List Bool) (k : Nat) (hk : k < n) :
    (packBytes n bs)[k]? = some (BitVec.ofNat 8 (bitsToNat ((bs.drop (8 * k)).take 8))) := by
  induction n generalizing bs k with
  | zero => omega
  | succ n ih =>
    cases k with
    | zero => simp [packBytes]
    | succ k =>
      have : 8 + 8 * k = 8 * (k + 1) := by ring
      simpa [packBytes, List.drop_drop, this] using ih (bs.drop 8) k (by omega)

end Sys2Proof.Machine
end

