-- ==== Sys2Proof/Laws/PerInstr.lean ====
section
/-! SUPPORT. The argument fields of the ten formats (30_encoding.md R72): an encoded argument leaves the must-be-zero bits zero.
Then a family over all commands, as syntax: the word of a command lies in its row of the opcode table,
`c & mask = match` (R75). -/

namespace Sys2Proof

theorem and_append {m n : Nat} (x a : BitVec m) (y b : BitVec n) :
    (x ++ y) &&& (a ++ b) = (x &&& a) ++ (y &&& b) := by
  ext j hj
  simp only [BitVec.getElem_and, BitVec.getElem_append]
  split <;> rfl

theorem reserved_zero {m n : Nat} (r : BitVec m) (y : BitVec n) : (0#m ++ y) &&& (r ++ 0#n) = 0#(m + n) := by
  rw [and_append]; simp

theorem append_mask {op : BitVec 8} {arg res : BitVec 24} (h : arg &&& res = 0) :
    (op ++ arg) &&& (0xFF#8 ++ res) = op ++ 0#24 := by
  rw [and_append, h]
  congr 1
  exact BitVec.and_allOnes

theorem argB_reserved (a : BitVec 8) : argB a &&& Format.reserved .B = 0 :=
  reserved_zero 0xFFFF#16 a

theorem argBB_reserved (a b : BitVec 8) : argBB a b &&& Format.reserved .BB = 0 :=
  reserved_zero 0xFF#8 (b ++ a)

theorem argI_reserved (i : BitVec 16) : argI i &&& Format.reserved .I = 0 :=
  reserved_zero 0xFF#8 i

theorem argIV_reserved (i : BitVec 16) (v : BitVec 8) : argIV i v &&& Format.reserved .IV = 0 :=
  BitVec.and_zero

theorem argNV_reserved (n : BitVec 5) (v : BitVec 16) : argNV n v &&& Format.reserved .NV = 0 :=
  reserved_zero 0x7#3 (n ++ v)

theorem argIK_reserved (i : BitVec 16) (k : BitVec 2) : argIK i k &&& Format.reserved .IK = 0 :=
  reserved_zero 0x3F#6 (k ++ i)

theorem argOL_reserved (off len : BitVec 12) : argOL off len &&& Format.reserved .OL = 0 :=
  BitVec.and_zero

theorem argW_reserved (w : BitVec 18) : argW w &&& Format.reserved .W = 0 :=
  reserved_zero 0x3F#6 w

theorem argM_reserved (m : BitVec 3) (x y : BitVec 8) : argM m x y &&& Format.reserved .M = 0 :=
  reserved_zero 0x1F#5 (m ++ (y ++ x))

end Sys2Proof

namespace Sys2Proof.Laws.EncodeInRow

/-- The word of a command lies in the command's row (30 R75). -/
def Statement (i : Instr) : Prop := encode i &&& i.rowMask = i.rowMatch

theorem nop : Statement (.nop) :=
  append_mask (by decide)

theorem rst : Statement (.rst) :=
  append_mask (by decide)

theorem rgRd (k : BitVec 8) : Statement (.rgRd k) :=
  append_mask (argB_reserved k)

theorem stClr : Statement (.stClr) :=
  append_mask (by decide)

theorem gf8Mul (a : BitVec 8) (b : BitVec 8) : Statement (.gf8Mul a b) :=
  append_mask (argBB_reserved a b)

theorem gf8Exp (i : BitVec 8) : Statement (.gf8Exp i) :=
  append_mask (argB_reserved i)

theorem gf8Log (a : BitVec 8) : Statement (.gf8Log a) :=
  append_mask (argB_reserved a)

theorem gf4Mul (a : BitVec 8) (b : BitVec 8) : Statement (.gf4Mul a b) :=
  append_mask (argBB_reserved a b)

theorem gf4Exp (i : BitVec 8) : Statement (.gf4Exp i) :=
  append_mask (argB_reserved i)

theorem gf4Log (a : BitVec 8) : Statement (.gf4Log a) :=
  append_mask (argB_reserved a)

theorem bbClr : Statement (.bbClr) :=
  append_mask (by decide)

theorem bbApp (n : BitVec 5) (v : BitVec 16) : Statement (.bbApp n v) :=
  append_mask (argNV_reserved n v)

theorem bbRd (i : BitVec 16) : Statement (.bbRd i) :=
  append_mask (argI_reserved i)

theorem txClr : Statement (.txClr) :=
  append_mask (by decide)

theorem txPush (c : BitVec 8) : Statement (.txPush c) :=
  append_mask (argB_reserved c)

theorem sgClr : Statement (.sgClr) :=
  append_mask (by decide)

theorem sgNum : Statement (.sgNum) :=
  append_mask (by decide)

theorem sgAln : Statement (.sgAln) :=
  append_mask (by decide)

theorem sgByt : Statement (.sgByt) :=
  append_mask (by decide)

theorem sgRd (i : BitVec 16) (k : BitVec 2) : Statement (.sgRd i k) :=
  append_mask (argIK_reserved i k)

theorem cfGen (d : BitVec 8) : Statement (.cfGen d) :=
  append_mask (argB_reserved d)

theorem cfSet (d : BitVec 8) : Statement (.cfSet d) :=
  append_mask (argB_reserved d)

theorem cfWr (i : BitVec 16) (v : BitVec 8) : Statement (.cfWr i v) :=
  append_mask (argIV_reserved i v)

theorem cfRd (i : BitVec 16) : Statement (.cfRd i) :=
  append_mask (argI_reserved i)

theorem rmInit : Statement (.rmInit) :=
  append_mask (by decide)

theorem rmStep (b : BitVec 8) : Statement (.rmStep b) :=
  append_mask (argB_reserved b)

theorem rmRd (i : BitVec 16) : Statement (.rmRd i) :=
  append_mask (argI_reserved i)

theorem rsRem (off : BitVec 12) (len : BitVec 12) : Statement (.rsRem off len) :=
  append_mask (argOL_reserved off len)

theorem cwClr : Statement (.cwClr) :=
  append_mask (by decide)

theorem cwPush (b : BitVec 8) : Statement (.cwPush b) :=
  append_mask (argB_reserved b)

theorem cwRd (i : BitVec 16) : Statement (.cwRd i) :=
  append_mask (argI_reserved i)

theorem sgTot (ver : BitVec 8) : Statement (.sgTot ver) :=
  append_mask (argB_reserved ver)

theorem asCat (ver : BitVec 8) : Statement (.asCat ver) :=
  append_mask (argB_reserved ver)

theorem asTerm (cap : BitVec 16) : Statement (.asTerm cap) :=
  append_mask (argI_reserved cap)

theorem asAlign : Statement (.asAlign) :=
  append_mask (by decide)

theorem asPad (cap : BitVec 16) : Statement (.asPad cap) :=
  append_mask (argI_reserved cap)

theorem asPack : Statement (.asPack) :=
  append_mask (by decide)

theorem mkBit (m : BitVec 3) (x : BitVec 8) (y : BitVec 8) : Statement (.mkBit m x y) :=
  append_mask (argM_reserved m x y)

theorem fmEnc (f : BitVec 8) : Statement (.fmEnc f) :=
  append_mask (argB_reserved f)

theorem fmDec (w : BitVec 18) : Statement (.fmDec w) :=
  append_mask (argW_reserved w)

theorem fmSyn (u : BitVec 18) : Statement (.fmSyn u) :=
  append_mask (argW_reserved u)

theorem fmCor (w : BitVec 18) : Statement (.fmCor w) :=
  append_mask (argW_reserved w)

theorem vrEnc (v : BitVec 8) : Statement (.vrEnc v) :=
  append_mask (argB_reserved v)

theorem vrDec (w : BitVec 18) : Statement (.vrDec w) :=
  append_mask (argW_reserved w)

theorem syRd (i : BitVec 16) : Statement (.syRd i) :=
  append_mask (argI_reserved i)

theorem lcRd (i : BitVec 16) : Statement (.lcRd i) :=
  append_mask (argI_reserved i)

theorem lcEval (x : BitVec 8) : Statement (.lcEval x) :=
  append_mask (argB_reserved x)

end Sys2Proof.Laws.EncodeInRow
end

