-- ==== Sys2Proof/Laws/ReedSolomon.lean ====
section
/-! SUPPORT. Lengths of the divider's sequences, and what a zero operand of the multiplier gives. -/

namespace Sys2Proof.Machine

@[simp] theorem gf8Mul_zero_right (a : Byte) : gf8Mul a 0 = 0 := by
  simp [gf8Mul, gf8MulStep, gf8Double]

theorem rsGenPass_length (root : Byte) (c : List Byte) (h : c ≠ []) : (rsGenPass root c).length = c.length := by
  have : 0 < c.length := List.length_pos_iff.mpr h
  simp [rsGenPass]; omega

theorem rsGenLoop_length (n : Nat) (root : Byte) (c : List Byte) (h : c ≠ []) :
    (rsGenLoop n root c).length = c.length := by
  induction n generalizing root c with
  | zero => rfl
  | succ n ih =>
    have hl := rsGenPass_length root c h
    have hp : rsGenPass root c ≠ [] := by
      intro h0; rw [h0] at hl; exact h (List.length_eq_zero_iff.mp hl.symm)
    rw [rsGenLoop, ih _ _ hp, hl]

theorem rsGen_length (d : Nat) (h : 1 ≤ d) : (rsGen d).length = d := by
  rw [rsGen, rsGenLoop_length _ _ _ (by simp)]; simp; omega

theorem rsStep_length (W C : List Byte) (b : Byte) (h : W.length = C.length) (hC : C ≠ []) :
    (rsStep W C b).1.length = C.length := by
  have : 0 < C.length := List.length_pos_iff.mpr hC
  simp [rsStep]; omega

theorem rsRem_length (D C : List Byte) (hC : C ≠ []) : (rsRem D C).length = C.length := by
  suffices ∀ W : List Byte, W.length = C.length →
      (D.foldl (fun W b => (rsStep W C b).1) W).length = C.length from this _ (by simp)
  induction D with
  | nil => intro W h; simpa using h
  | cons b D ih => intro W h; exact ih _ (rsStep_length W C b h hC)

end Sys2Proof.Machine
end

