-- ==== Sys2Proof/Laws/Segments.lean ====
section
/-! SUPPORT. The lengths of payloads and of the assembled stream (42 R136, R138, R140; 44 R193, R197, R198). -/

namespace Sys2Proof.Machine

theorem numericBits_length (t : List Byte) :
    (numericBits t).length = 10 * (t.length / 3) + [0, 4, 7].getD (t.length % 3) 0 := by
  induction t using numericBits.induct with
  | case1 a b c rest ih =>
    have h1 : (rest.length + 3) / 3 = rest.length / 3 + 1 := by omega
    have h2 : (rest.length + 3) % 3 = rest.length % 3 := by omega
    simp only [numericBits, List.length_append, bitsOf_length, ih, List.length_cons, h1, h2]
    omega
  | case2 a b => simp [numericBits]
  | case3 a => simp [numericBits]
  | case4 => simp [numericBits]

theorem alnumBits_length (t : List Byte) :
    (alnumBits t).length = 11 * (t.length / 2) + 6 * (t.length % 2) := by
  induction t using alnumBits.induct with
  | case1 a b rest ih =>
    simp only [alnumBits, List.length_append, bitsOf_length, ih, List.length_cons]; omega
  | case2 a => simp [alnumBits]
  | case3 => simp [alnumBits]

theorem byteBits_length (t : List Byte) : (byteBits t).length = 8 * t.length := by
  induction t with
  | nil => rfl
  | cons a t ih => simp only [byteBits, List.flatMap_cons, List.length_append, bitsOf_length, List.length_cons] at *; omega

@[simp] theorem bbAppend_length (S : List Bool) (n v : Nat) : (bbAppend S n v).length = S.length + n := by
  simp [bbAppend]

theorem padBits_length (n : Nat) : (padBits n).length = 8 * n := by
  induction n using padBits.induct with
  | case1 => rfl
  | case2 => simp [padBits]
  | case3 n ih => simp only [padBits, List.length_append, bitsOf_length, ih]; omega

theorem alignLength_lt (n : Nat) : alignLength n < 8 := by unfold alignLength; omega

theorem alignLength_mod (n : Nat) : (n + alignLength n) % 8 = 0 := by unfold alignLength; omega

end Sys2Proof.Machine
end

