-- ==== Sys2Proof/Tests/Slice0.lean ====
section
/-! SUPPORT. Small tests, each about one word or one step: a word of every command decoded, an ill-formed term for every check of
`wellFormed`, one or two steps of every command with the answer the spec prints for it, and a witness for the hypotheses of
every statement. Expected values are those of the command rules' examples and of 95_test_vectors.md. -/

namespace Sys2Proof.Tests

open Sys2Proof Sys2Proof.Machine Sys2Proof.Safety Sys2Proof.Claims

/-! ## Decoding: one word of every command, as the command's rule prints it (30 R75, R72) -/

theorem test_decode_nop : decode 0x00000000 = .ok (.nop) := by decide
theorem test_decode_rst : decode 0x01000000 = .ok (.rst) := by decide
theorem test_decode_rgRd : decode 0x02000001 = .ok (.rgRd 1) := by decide
theorem test_decode_stClr : decode 0x03000000 = .ok (.stClr) := by decide
theorem test_decode_gf8Mul : decode 0x10008002 = .ok (.gf8Mul 0x02 0x80) := by decide
theorem test_decode_gf8Exp : decode 0x11000008 = .ok (.gf8Exp 8) := by decide
theorem test_decode_gf8Log : decode 0x1200001D = .ok (.gf8Log 0x1D) := by decide
theorem test_decode_gf4Mul : decode 0x20000D0B = .ok (.gf4Mul 0xB 0xD) := by decide
theorem test_decode_gf4Exp : decode 0x21000004 = .ok (.gf4Exp 4) := by decide
theorem test_decode_gf4Log : decode 0x22000009 = .ok (.gf4Log 9) := by decide
theorem test_decode_bbClr : decode 0x30000000 = .ok (.bbClr) := by decide
theorem test_decode_bbApp : decode 0x31040001 = .ok (.bbApp 4 1) := by decide
theorem test_decode_bbRd : decode 0x32000003 = .ok (.bbRd 3) := by decide
theorem test_decode_txClr : decode 0x33000000 = .ok (.txClr) := by decide
theorem test_decode_txPush : decode 0x34000037 = .ok (.txPush 0x37) := by decide
theorem test_decode_sgClr : decode 0x35000000 = .ok (.sgClr) := by decide
theorem test_decode_sgNum : decode 0x36000000 = .ok (.sgNum) := by decide
theorem test_decode_sgAln : decode 0x37000000 = .ok (.sgAln) := by decide
theorem test_decode_sgByt : decode 0x38000000 = .ok (.sgByt) := by decide
theorem test_decode_sgRd : decode 0x39020000 = .ok (.sgRd 0 2) := by decide
theorem test_decode_cfGen : decode 0x40000002 = .ok (.cfGen 2) := by decide
theorem test_decode_cfSet : decode 0x41000003 = .ok (.cfSet 3) := by decide
theorem test_decode_cfWr : decode 0x42010002 = .ok (.cfWr 2 1) := by decide
theorem test_decode_cfRd : decode 0x43000000 = .ok (.cfRd 0) := by decide
theorem test_decode_rmInit : decode 0x44000000 = .ok (.rmInit) := by decide
theorem test_decode_rmStep : decode 0x45000012 = .ok (.rmStep 0x12) := by decide
theorem test_decode_rmRd : decode 0x46000001 = .ok (.rmRd 1) := by decide
theorem test_decode_rsRem : decode 0x47010000 = .ok (.rsRem 0 16) := by decide
theorem test_decode_cwClr : decode 0x48000000 = .ok (.cwClr) := by decide
theorem test_decode_cwPush : decode 0x49000010 = .ok (.cwPush 0x10) := by decide
theorem test_decode_cwRd : decode 0x4A000000 = .ok (.cwRd 0) := by decide
theorem test_decode_sgTot : decode 0x50000001 = .ok (.sgTot 1) := by decide
theorem test_decode_asCat : decode 0x51000001 = .ok (.asCat 1) := by decide
theorem test_decode_asTerm : decode 0x52000013 = .ok (.asTerm 19) := by decide
theorem test_decode_asAlign : decode 0x53000000 = .ok (.asAlign) := by decide
theorem test_decode_asPad : decode 0x54000013 = .ok (.asPad 19) := by decide
theorem test_decode_asPack : decode 0x55000000 = .ok (.asPack) := by decide
theorem test_decode_mkBit : decode 0x60040103 = .ok (.mkBit 4 3 1) := by decide
theorem test_decode_fmEnc : decode 0x70000008 = .ok (.fmEnc 8) := by decide
theorem test_decode_fmDec : decode 0x71003745 = .ok (.fmDec 0x3745) := by decide
theorem test_decode_fmSyn : decode 0x720023D7 = .ok (.fmSyn 0x23D7) := by decide
theorem test_decode_fmCor : decode 0x730075CC = .ok (.fmCor 0x75CC) := by decide
theorem test_decode_vrEnc : decode 0x74000007 = .ok (.vrEnc 7) := by decide
theorem test_decode_vrDec : decode 0x75006D85 = .ok (.vrDec 0x6D85) := by decide
theorem test_decode_syRd : decode 0x76000002 = .ok (.syRd 2) := by decide
theorem test_decode_lcRd : decode 0x77000002 = .ok (.lcRd 2) := by decide
theorem test_decode_lcEval : decode 0x7800000F = .ok (.lcEval 0xF) := by decide

/-- 30 R76: unassigned opcodes at the borders of the gaps. -/
theorem test_decode_unassigned :
    [0x04000000, 0x0F000000, 0x13000000, 0x23000000, 0x3A000000, 0x4B000000, 0x56000000, 0x61000000, 0x79000000,
      0xFF000000].map decode = List.replicate 10 (.error .unassignedOpcode) := by decide

/-- 30 R74: the lowest must-be-zero bit of each format that has one. -/
theorem test_decode_reserved :
    [0x00000001, 0x02000100, 0x10010000, 0x32010000, 0x31200000, 0x39040000, 0x71040000, 0x60080000].map decode =
      List.replicate 8 (.error .reservedBits) := by decide

/-- 30 R72: all bits of the widest formats are operand bits. -/
theorem test_decode_top_bits :
    decode 0x47FFFFFF = .ok (.rsRem 0xFFF 0xFFF) ∧ decode 0x42FF8000 = .ok (.cfWr 0x8000 0xFF) ∧
    decode 0x31108000 = .ok (.bbApp 16 0x8000) ∧ decode 0x75020000 = .ok (.vrDec 0x20000) := by decide

theorem test_decodeTableWord : decodeTableWord 32 0x4A000003 = some (.cwRd 3) := by decide

theorem test_text : (Instr.bbApp 4 1).text = "BB.APP 4, 1" := by decide

/-! ## WellFormed: an ill-formed term for each check (30 R73, and the command's rule) -/

theorem test_illFormed_register : wellFormed (.rgRd 7) = false := by decide
theorem test_illFormed_gf4Mul_a : wellFormed (.gf4Mul 16 0) = false := by decide
theorem test_illFormed_gf4Mul_b : wellFormed (.gf4Mul 0 16) = false := by decide
theorem test_illFormed_gf4Exp : wellFormed (.gf4Exp 16) = false := by decide
theorem test_illFormed_gf4Log : wellFormed (.gf4Log 16) = false := by decide
theorem test_illFormed_bbApp_width : wellFormed (.bbApp 17 0) = false := by decide
theorem test_illFormed_bbApp_value : wellFormed (.bbApp 4 16) = false := by decide
theorem test_illFormed_sgRd : wellFormed (.sgRd 0 3) = false := by decide
theorem test_illFormed_cfGen : wellFormed (.cfGen 0) = false := by decide
theorem test_illFormed_cfSet : wellFormed (.cfSet 0) = false := by decide
theorem test_illFormed_sgTot_low : wellFormed (.sgTot 0) = false := by decide
theorem test_illFormed_sgTot_high : wellFormed (.sgTot 41) = false := by decide
theorem test_illFormed_asCat_low : wellFormed (.asCat 0) = false := by decide
theorem test_illFormed_asCat_high : wellFormed (.asCat 41) = false := by decide
theorem test_illFormed_asTerm : wellFormed (.asTerm 4097) = false := by decide
theorem test_illFormed_asPad : wellFormed (.asPad 4097) = false := by decide
theorem test_illFormed_fmEnc : wellFormed (.fmEnc 32) = false := by decide
theorem test_illFormed_fmDec : wellFormed (.fmDec 0x8000) = false := by decide
theorem test_illFormed_fmSyn : wellFormed (.fmSyn 0x8000) = false := by decide
theorem test_illFormed_fmCor : wellFormed (.fmCor 0x8000) = false := by decide
theorem test_illFormed_vrEnc_low : wellFormed (.vrEnc 0) = false := by decide
theorem test_illFormed_vrEnc_high : wellFormed (.vrEnc 41) = false := by decide
theorem test_illFormed_syRd : wellFormed (.syRd 6) = false := by decide
theorem test_illFormed_lcRd : wellFormed (.lcRd 64) = false := by decide
theorem test_illFormed_lcEval : wellFormed (.lcEval 16) = false := by decide

theorem test_wellFormed_borders :
    [Instr.rgRd 6, .gf4Mul 15 15, .bbApp 16 0xFFFF, .bbApp 0 0, .sgRd 0 2, .cfGen 255, .sgTot 40, .asTerm 4096, .fmEnc 31,
      .fmDec 0x7FFF, .vrEnc 1, .syRd 5, .lcRd 63, .lcEval 15].all wellFormed = true := by decide

/-! ## Small states -/

/-- The response of an answer, as numbers (30 R81). -/
def resp (r : Result) : Option (Nat × Nat) :=
  match r with
  | .next s => some (s.response.code.toNat, s.response.res.toNat)
  | .fault _ => none
  | .refused _ => none

/-- The answer's state, or the reset state where there is none. -/
def after (r : Result) : State :=
  match r with
  | .next s => s
  | .fault _ => State.reset
  | .refused _ => State.reset

/-- The bits a string of digits 0 and 1 shows. -/
def bits (t : String) : List Bool := t.toList.map (fun c => c == '1')

/-- A state with a text in `TX`. -/
def withText (t : List Byte) : State := { State.reset with tx := t }

/-- The segment of `"01234567"` as 42 R143 prints it. -/
def numSegment : Segment :=
  { mode := .numeric, count := 8, bits := bits "000000110001010110011000011" }

/-- The text `"01234567"`. -/
def digits8 : List Byte := [0x30, 0x31, 0x32, 0x33, 0x34, 0x35, 0x36, 0x37]

/-- The text `"HELLO WORLD"`. -/
def hello : List Byte := [0x48, 0x45, 0x4C, 0x4C, 0x4F, 0x20, 0x57, 0x4F, 0x52, 0x4C, 0x44]

/-- A state with that one segment. -/
def oneSegment : State := { State.reset with seg := [numSegment] }

/-- A state with the divisor of degree 2 (43 R166) and three codewords. -/
def divisor2 : State :=
  { State.reset with deg := 2, coef := [0x03, 0x02], rem := [0x00, 0x00], cw := [0x12, 0x34, 0x56] }

/-- The divisor of degree 2 after `RM.STEP 0x12` (43 R171). -/
def divisor2Stepped : State := { divisor2 with rem := [0x36, 0x24] }

/-- A state with `n` zero bits in `BB`. -/
def withBits (n : Nat) : State := { State.reset with bb := List.replicate n false }

/-- The full buffers. -/
def fullText : State := { State.reset with tx := List.replicate Config.txMax 0x30 }

def fullCodewords : State := { State.reset with cw := List.replicate Config.cwMax 0 }

def fullSegments : State := { State.reset with seg := List.replicate Config.segMax numSegment }

/-- A segment list whose payload bits leave no room. -/
def fullPayload : State :=
  { State.reset with
    seg := [{ mode := .byte, count := 4096, bits := List.replicate Config.bbMax false }]
    tx := [0x30] }

/-! ## One step of every command -/

/-- The state with the syndromes and the locator that 46 R242 prints for `FM.COR 0x75CC`. -/
def corrected : State :=
  { State.reset with
    syn := #v[2, 4, 5, 3, 0, 2]
    sigma := locatorArray (1 :: 2 :: 0xF :: List.replicate 61 0) }

theorem test_nop : resp (exec (.nop) { State.reset with res := 7 }) = some (0, 0) := by decide
theorem test_rst : exec .rst divisor2Stepped = .next State.reset := by rfl
theorem test_rgRd_status :
    resp (exec (.rgRd 1) { State.reset with status := { code := .segCharset, sticky := true } }) =
      some (0, 0x105) := by decide
theorem test_rgRd_7 : resp (exec (.rgRd 7) State.reset) = some (2, 0) := by decide
theorem test_stClr :
    (after (exec .stClr { State.reset with status := { code := .capacity, sticky := true } })).status =
      { code := .ok, sticky := false } := by decide
theorem test_gf8Mul : resp (exec (.gf8Mul 0x02 0x80) State.reset) = some (0, 0x1D) := by decide
theorem test_gf8Exp : resp (exec (.gf8Exp 8) State.reset) = some (0, 0x1D) := by decide
theorem test_gf8Exp_255 : resp (exec (.gf8Exp 255) State.reset) = some (0, 1) := by decide
theorem test_gf8Log : resp (exec (.gf8Log 0x1D) State.reset) = some (0, 8) := by decide
theorem test_gf8Log_0 : resp (exec (.gf8Log 0) State.reset) = some (0, 0) := by decide
theorem test_gf4Mul : resp (exec (.gf4Mul 0xB 0xD) State.reset) = some (0, 6) := by decide
theorem test_gf4Mul_16 : resp (exec (.gf4Mul 16 0) State.reset) = some (2, 0) := by decide
theorem test_gf4Exp : resp (exec (.gf4Exp 4) State.reset) = some (0, 3) := by decide
theorem test_gf4Exp_16 : resp (exec (.gf4Exp 16) State.reset) = some (2, 0) := by decide
theorem test_gf4Log : resp (exec (.gf4Log 9) State.reset) = some (0, 0xE) := by decide
theorem test_gf4Log_0 : resp (exec (.gf4Log 0) State.reset) = some (0, 0) := by decide
theorem test_bbClr : (after (exec .bbClr (withBits 3))).bb = [] := by decide
theorem test_bbApp : (after (exec (.bbApp 4 1) State.reset)).bb = [false, false, false, true] := by decide
theorem test_bbApp_value : resp (exec (.bbApp 4 16) State.reset) = some (2, 0) := by decide
theorem test_bbRd : resp (exec (.bbRd 3) { State.reset with bb := [false, false, false, true] }) = some (0, 1) := by decide
theorem test_bbRd_beyond :
    resp (exec (.bbRd 4) { State.reset with bb := [false, false, false, true] }) =
      some (2, 0) := by decide
theorem test_txClr : (after (exec .txClr (withText [1]))).tx = [] := by decide
theorem test_txPush : (after (exec (.txPush 0x37) State.reset)).tx = [0x37] := by decide
theorem test_sgClr : (after (exec .sgClr oneSegment)).seg = [] := by decide
theorem test_sgNum : (after (exec .sgNum (withText digits8))).seg = [numSegment] := by decide
theorem test_sgNum_charset : resp (exec (.sgNum) (withText [0x30, 0x3A])) = some (5, 0) := by decide
theorem test_sgAln :
    (after (exec .sgAln (withText hello))).seg.map Segment.bits =
      [bits "0110000101101111000110100010111001011011100010011010100001101"] := by decide
theorem test_sgAln_lower : resp (exec (.sgAln) (withText [0x61])) = some (5, 0) := by decide
theorem test_sgByt :
    (after (exec .sgByt (withText [0x41]))).seg =
      [{ mode := .byte, count := 1, bits := bits "01000001" }] := by decide
theorem test_sgByt_empty : resp (exec (.sgByt) State.reset) = some (6, 0) := by decide
theorem test_sgRd : resp (exec (.sgRd 0 2) oneSegment) = some (0, 27) := by decide
theorem test_sgRd_mode : resp (exec (.sgRd 0 0) oneSegment) = some (0, 1) := by decide
theorem test_cfGen : (after (exec (.cfGen 2) State.reset)).coef = [0x03, 0x02] := by decide
theorem test_cfGen_10 : ((after (exec (.cfGen 10) State.reset)).coef).head? = some 0xD8 := by decide +kernel
theorem test_cfSet : (after (exec (.cfSet 3) State.reset)).coef = [0, 0, 0] := by decide
theorem test_cfSet_0 : resp (exec (.cfSet 0) State.reset) = some (2, 0) := by decide
theorem test_cfWr : (after (exec (.cfWr 1 0xAB) divisor2)).coef = [0x03, 0xAB] := by decide
theorem test_cfWr_beyond : resp (exec (.cfWr 2 1) divisor2) = some (2, 0) := by decide
theorem test_cfRd : resp (exec (.cfRd 1) divisor2) = some (0, 2) := by decide
theorem test_cfRd_beyond : resp (exec (.cfRd 2) divisor2) = some (2, 0) := by decide
theorem test_rmInit : (after (exec .rmInit divisor2Stepped)).rem = [0, 0] := by decide
theorem test_rmInit_none : resp (exec (.rmInit) State.reset) = some (3, 0) := by decide
theorem test_rmStep :
    ((after (exec (.rmStep 0x34) divisor2Stepped)).res.toNat, (after (exec (.rmStep 0x34) divisor2Stepped)).rem) =
      (0x02, [0x22, 0x04]) := by decide
theorem test_rmStep_none : resp (exec (.rmStep 1) State.reset) = some (3, 0) := by decide
theorem test_rmRd : resp (exec (.rmRd 1) divisor2Stepped) = some (0, 0x24) := by decide
theorem test_rmRd_beyond : resp (exec (.rmRd 2) divisor2Stepped) = some (2, 0) := by decide
theorem test_rsRem : (after (exec (.rsRem 0 3) divisor2)).rem = [0x98, 0xE8] := by decide
theorem test_rsRem_slice : resp (exec (.rsRem 2 2) divisor2) = some (2, 0) := by decide
theorem test_cwClr : (after (exec .cwClr divisor2)).cw = [] := by decide
theorem test_cwPush : resp (exec (.cwPush 0x10) State.reset) = some (0, 1) := by decide
theorem test_cwRd : resp (exec (.cwRd 0) divisor2) = some (0, 0x12) := by decide
theorem test_cwRd_beyond : resp (exec (.cwRd 3) divisor2) = some (2, 0) := by decide
theorem test_sgTot_1 : resp (exec (.sgTot 1) oneSegment) = some (0, 41) := by decide
theorem test_sgTot_27 : resp (exec (.sgTot 27) oneSegment) = some (0, 45) := by decide
theorem test_asCat :
    (after (exec (.asCat 1) oneSegment)).bb =
      bits "00010000001000000000110001010110011000011" := by decide
theorem test_asCat_41 : resp (exec (.asCat 41) oneSegment) = some (2, 0) := by decide
theorem test_asTerm : resp (exec (.asTerm 19) (withBits 41)) = some (0, 45) := by decide
theorem test_asTerm_short : resp (exec (.asTerm 3) (withBits 21)) = some (0, 24) := by decide
theorem test_asAlign : resp (exec (.asAlign) (withBits 45)) = some (0, 48) := by decide
theorem test_asAlign_aligned : resp (exec (.asAlign) (withBits 48)) = some (0, 48) := by decide
theorem test_asPad : (after (exec (.asPad 3) (withBits 0))).bb = bits "111011000001000111101100" := by decide
theorem test_asPad_unaligned : resp (exec (.asPad 19) (withBits 45)) = some (3, 0) := by decide
theorem test_asPack :
    (after (exec .asPack { State.reset with bb := bits "0001000000100000" })).cw =
      [0x10, 0x20] := by decide
theorem test_asPack_unaligned : resp (exec (.asPack) (withBits 45)) = some (3, 0) := by decide
theorem test_mkBit : resp (exec (.mkBit 4 3 1) State.reset) = some (0, 0) := by decide
theorem test_mkBit_0 : resp (exec (.mkBit 0 2 4) State.reset) = some (0, 1) := by decide
theorem test_fmEnc : resp (exec (.fmEnc 8) State.reset) = some (0, 0x77C4) := by decide
theorem test_fmEnc_0 : resp (exec (.fmEnc 0) State.reset) = some (0, 0x5412) := by decide
theorem test_fmDec : resp (exec (.fmDec 0x3745) State.reset) = some (0, 8) := by decide +kernel
theorem test_fmDec_far : resp (exec (.fmDec 0) State.reset) = some (8, 0) := by decide +kernel
theorem test_fmSyn :
    ((after (exec (.fmSyn 0x63D6) State.reset)).res.toNat, (after (exec (.fmSyn 0x63D6) State.reset)).syn.toList) =
      (1, [0x9, 0xD, 0xF, 0xE, 0x7, 0xA]) := by decide +kernel
theorem test_fmSyn_0 : resp (exec (.fmSyn 0) State.reset) = some (0, 0) := by decide +kernel
theorem test_fmCor :
    ((after (exec (.fmCor 0x75CC) State.reset)).res.toNat, (after (exec (.fmCor 0x75CC) State.reset)).syn.toList,
      (after (exec (.fmCor 0x75CC) State.reset)).sigma.toList.take 5) =
      (0x23D6, [2, 4, 5, 3, 0, 2], [1, 2, 0xF, 0, 0]) := by decide +kernel
theorem test_fmCor_fails : resp (exec (.fmCor 0x77CB) State.reset) = some (8, 0) := by decide +kernel
theorem test_vrEnc : resp (exec (.vrEnc 7) State.reset) = some (0, 0x7C94) := by decide
theorem test_vrEnc_41 : resp (exec (.vrEnc 41) State.reset) = some (2, 0) := by decide
theorem test_vrDec : resp (exec (.vrDec 0x6D85) State.reset) = some (0, 7) := by decide +kernel
theorem test_vrDec_tie : resp (exec (.vrDec 0x7C9B) State.reset) = some (9, 0) := by decide +kernel
theorem test_syRd : resp (exec (.syRd 1) corrected) = some (0, 4) := by decide
theorem test_syRd_6 : resp (exec (.syRd 6) corrected) = some (2, 0) := by decide
theorem test_lcRd : resp (exec (.lcRd 2) corrected) = some (0, 0xF) := by decide
theorem test_lcRd_64 : resp (exec (.lcRd 64) corrected) = some (2, 0) := by decide
theorem test_lcEval : resp (exec (.lcEval 0xF) corrected) = some (0, 0) := by decide +kernel
theorem test_lcEval_1 : resp (exec (.lcEval 1) corrected) = some (0, 0xC) := by decide +kernel

/-! ## Step -/

/-- 30 R74, 60 R322: an illegal word ends with `ILLEGAL_CMD` and the stream moves on. -/
theorem test_step_illegal :
    (after (step (State.load [0x04000000, 0x00000000] divisor2Stepped))) =
      { divisor2Stepped with
        cmds := [0x04000000, 0x00000000], idx := 1, res := 0, status := { code := .illegalCmd, sticky := true } } := by
  decide

theorem test_step_end : step State.reset = .fault .noCommand := by rfl

theorem test_fetch_word :
    step (State.reset.withFetchWord 32 0x49000010) =
      .next { State.reset with cmds := [0x49000010], idx := 1, res := 1, cw := [0x10] } := by rfl

/-- 30 R80: `RS.ENC 2` over the three codewords of 43 R171. -/
theorem test_rsEnc : (runPseudo (.rsEnc 2 3) { State.reset with cw := [0x12, 0x34, 0x56] }).1.rem = [0x98, 0xE8] := by
  decide +kernel

/-! ## Witnesses: for every statement with hypotheses, inputs that meet them, clause by clause, at the borders of the ranges -/

/-- A segment list with `n` payload bits, and a text. -/
def payloadOf (n : Nat) (t : List Byte) : State :=
  { State.reset with seg := [{ mode := .byte, count := 4096, bits := List.replicate n false }], tx := t }

theorem payloadOf_held (n : Nat) (t : List Byte) : heldBits (payloadOf n t).seg = n := by
  simp [heldBits, payloadOf]

theorem withBits_length (n : Nat) : (withBits n).bb.length = n := by
  unfold withBits; exact List.length_replicate ..

/-- One numeric record of count `c` without payload: enough for the width tests. -/
def countOf (c : Nat) : State := { State.reset with seg := [{ mode := .numeric, count := c, bits := [] }] }

theorem divisor2_inv : Inv divisor2 := by
  constructor <;> first | decide | simp [divisor2, State.reset]

theorem divisor2Stepped_inv : Inv divisor2Stepped := by
  constructor <;> first | decide | simp [divisor2Stepped, divisor2, State.reset]

/-- An answer with a response is a next state, and the response is that state's. -/
theorem next_of_resp {r : Result} {c v : Nat} (h : resp r = some (c, v)) :
    ∃ t, r = .next t ∧ (codeNumber t.status.code).toNat = c := by
  cases r with
  | next s =>
    simp only [resp, State.response, Option.some.injEq, Prod.mk.injEq] at h
    exact ⟨s, rfl, h.1⟩
  | fault _ => simp [resp] at h
  | refused _ => simp [resp] at h

theorem test_witness_StepRunsTheDecodedCommand :
    ((State.load [0x49000010] State.reset).cmds[(State.load [0x49000010] State.reset).idx]? = some 0x49000010 ∧
      decode 0x49000010 = .ok (.cwPush 0x10)) ∧
    ((State.load [0x04000000] State.reset).cmds[(State.load [0x04000000] State.reset).idx]? = some 0x04000000 ∧
      decode 0x04000000 = .error .unassignedOpcode) ∧
    (State.load [] State.reset).cmds[(State.load [] State.reset).idx]? = none := by decide

theorem test_witness_WordIsCommandExactlyInItsRow :
    (∃ i, decode 0x4A000003 = .ok i ∧ i.mnemonic = "CW.RD") ∧ InRow 0x4A000003 "CW.RD" :=
  ⟨⟨.cwRd 3, by decide, by decide⟩, ⟨("CW.RD", 0x4A000000, 0xFFFF0000), by decide, by decide, by decide⟩⟩

theorem test_witness_IllegalWordChangesNothingElse :
    (State.load [0x04000000] State.reset).cmds[(State.load [0x04000000] State.reset).idx]? = some 0x04000000 ∧
    InNoRow 0x04000000 ∧ InNoRow 0x00000001 ∧ InNoRow 0x02000100 := by
  unfold InNoRow; decide

theorem test_witness_OperandRangeViolationIsBadOperand : wellFormed (.rgRd 7) = false := by decide

theorem test_witness_Gf8FieldLaws : (0x02 : Byte) ≠ 0 ∧ (0xFF : Byte) ≠ 0 ∧ 254 < 255 := by decide

theorem test_witness_Gf8TableReadsComplete : (1 : BitVec 8) ≠ 0 ∧ (255 : BitVec 8) ≠ 0 := by decide

theorem test_witness_Gf4TablesAndFieldLaws : 15 < 16 ∧ (1 : Nibble) ≠ 0 ∧ (15 : Nibble) ≠ 0 := by decide

theorem test_witness_BitFieldAppendCompletes :
    ((16 : BitVec 5).toNat ≤ 16 ∧ (0xFFFF : BitVec 16).toNat < 2 ^ (16 : BitVec 5).toNat ∧
      (withBits (Config.bbMax - 16)).bb.length + (16 : BitVec 5).toNat ≤ Config.bbMax) ∧
    (16 < (17 : BitVec 5).toNat ∧ 2 ^ (4 : BitVec 5).toNat ≤ (16 : BitVec 16).toNat) ∧
    ((16 : BitVec 5).toNat ≤ 16 ∧ (0xFFFF : BitVec 16).toNat < 2 ^ (16 : BitVec 5).toNat ∧
      Config.bbMax < (withBits (Config.bbMax - 15)).bb.length + (16 : BitVec 5).toNat) := by
  rw [withBits_length, withBits_length]; decide

theorem test_witness_BitAndTextBufferCommandsComplete :
    (withBits 4).bb[(3 : BitVec 16).toNat]? = some false ∧ (withBits 4).bb.length ≤ (4 : BitVec 16).toNat ∧
    (withText (List.replicate (Config.txMax - 1) 0)).tx.length ≠ Config.txMax ∧
    fullText.tx.length = Config.txMax := by
  refine ⟨by decide, by decide, ?_, ?_⟩
  · unfold withText; rw [List.length_replicate]; decide
  · unfold fullText; exact List.length_replicate ..

theorem test_witness_NumericSegmentCompletes :
    (8 = (withText digits8).tx.length ∧ 8 % 3 = 2 ∧ (withText digits8).seg.length ≠ Config.segMax ∧
      (∀ c ∈ (withText digits8).tx, 0x30 ≤ c.toNat ∧ c.toNat ≤ 0x39) ∧
      heldBits (withText digits8).seg + (10 * (8 / 3) + [0, 4, 7].getD (8 % 3) 0) ≤ Config.bbMax) ∧
    (1 = (payloadOf (Config.bbMax - 4) [0x39]).tx.length ∧ 1 % 3 = 1 ∧
      (payloadOf (Config.bbMax - 4) [0x39]).seg.length ≠ Config.segMax ∧
      (∀ c ∈ (payloadOf (Config.bbMax - 4) [0x39]).tx, 0x30 ≤ c.toNat ∧ c.toNat ≤ 0x39) ∧
      heldBits (payloadOf (Config.bbMax - 4) [0x39]).seg + (10 * (1 / 3) + [0, 4, 7].getD (1 % 3) 0) ≤ Config.bbMax) ∧
    (0 = fullSegments.tx.length ∧ fullSegments.seg.length = Config.segMax) ∧
    (1 = (withText [0x3A]).tx.length ∧ (withText [0x3A]).seg.length ≠ Config.segMax ∧
      ∃ c ∈ (withText [0x3A]).tx, c.toNat < 0x30 ∨ 0x39 < c.toNat) ∧
    (1 = (payloadOf (Config.bbMax - 3) [0x30]).tx.length ∧
      (payloadOf (Config.bbMax - 3) [0x30]).seg.length ≠ Config.segMax ∧
      (∀ c ∈ (payloadOf (Config.bbMax - 3) [0x30]).tx, 0x30 ≤ c.toNat ∧ c.toNat ≤ 0x39) ∧
      Config.bbMax < heldBits (payloadOf (Config.bbMax - 3) [0x30]).seg + (10 * (1 / 3) + [0, 4, 7].getD (1 % 3) 0)) := by
  rw [payloadOf_held, payloadOf_held]; decide

theorem test_witness_AlphanumericSegmentCompletes :
    (11 = (withText hello).tx.length ∧ (withText hello).seg.length ≠ Config.segMax ∧
      (∀ c ∈ (withText hello).tx, c.toNat ∈ alnumChars) ∧
      heldBits (withText hello).seg + (11 * (11 / 2) + 6 * (11 % 2)) ≤ Config.bbMax) ∧
    (1 = (payloadOf (Config.bbMax - 6) [0x3A]).tx.length ∧
      (payloadOf (Config.bbMax - 6) [0x3A]).seg.length ≠ Config.segMax ∧
      (∀ c ∈ (payloadOf (Config.bbMax - 6) [0x3A]).tx, c.toNat ∈ alnumChars) ∧
      heldBits (payloadOf (Config.bbMax - 6) [0x3A]).seg + (11 * (1 / 2) + 6 * (1 % 2)) ≤ Config.bbMax) ∧
    (0 = fullSegments.tx.length ∧ fullSegments.seg.length = Config.segMax) ∧
    (1 = (withText [0x61]).tx.length ∧ (withText [0x61]).seg.length ≠ Config.segMax ∧
      ∃ c ∈ (withText [0x61]).tx, c.toNat ∉ alnumChars) ∧
    (1 = (payloadOf (Config.bbMax - 5) [0x30]).tx.length ∧
      (payloadOf (Config.bbMax - 5) [0x30]).seg.length ≠ Config.segMax ∧
      (∀ c ∈ (payloadOf (Config.bbMax - 5) [0x30]).tx, c.toNat ∈ alnumChars) ∧
      Config.bbMax < heldBits (payloadOf (Config.bbMax - 5) [0x30]).seg + (11 * (1 / 2) + 6 * (1 % 2))) := by
  rw [payloadOf_held, payloadOf_held]; decide

theorem test_witness_ByteSegmentCompletes :
    (1 = (payloadOf (Config.bbMax - 8) [0]).tx.length ∧ 1 ≠ 0 ∧
      (payloadOf (Config.bbMax - 8) [0]).seg.length ≠ Config.segMax ∧
      heldBits (payloadOf (Config.bbMax - 8) [0]).seg + 8 * 1 ≤ Config.bbMax) ∧
    (0 = fullSegments.tx.length ∧ fullSegments.seg.length = Config.segMax) ∧
    (0 = (withText []).tx.length ∧ (withText []).seg.length ≠ Config.segMax) ∧
    (1 = (payloadOf (Config.bbMax - 7) [0]).tx.length ∧ 1 ≠ 0 ∧
      (payloadOf (Config.bbMax - 7) [0]).seg.length ≠ Config.segMax ∧
      Config.bbMax < heldBits (payloadOf (Config.bbMax - 7) [0]).seg + 8 * 1) := by
  rw [payloadOf_held, payloadOf_held]; decide

theorem test_witness_SegmentListClearAndReadComplete :
    oneSegment.seg[(0 : BitVec 16).toNat]? = some numSegment ∧ oneSegment.seg.length ≤ (1 : BitVec 16).toNat := by decide

theorem test_witness_GeneratorCommandCompletes :
    (1 ≤ (1 : BitVec 8).toNat ∧ (1 : BitVec 8).toNat ≤ Config.degMax) ∧
    (1 ≤ (255 : BitVec 8).toNat ∧ (255 : BitVec 8).toNat ≤ Config.degMax) ∧ (0 : BitVec 8).toNat = 0 := by decide

theorem test_witness_GeneratorVanishesAtItsRoots : (1 ≤ 1 ∧ 1 ≤ 255 ∧ 0 < 1) ∧ (1 ≤ 255 ∧ 255 ≤ 255 ∧ 254 < 255) := by
  decide

theorem test_witness_CoefficientCommandsComplete :
    (1 ≤ (255 : BitVec 8).toNat ∧ (255 : BitVec 8).toNat ≤ Config.degMax) ∧ (0 : BitVec 8).toNat = 0 ∧
    (1 : BitVec 16).toNat < divisor2.deg.toNat ∧ divisor2.deg.toNat ≤ (2 : BitVec 16).toNat ∧
    (divisor2.coef.length = divisor2.deg.toNat ∧ divisor2.coef[(1 : BitVec 16).toNat]? = some 0x02) := by decide

theorem test_witness_WindowCommandsComplete :
    divisor2.deg ≠ 0 ∧ State.reset.deg = 0 ∧
    (divisor2Stepped.rem.length = divisor2Stepped.deg.toNat ∧ divisor2Stepped.rem[(1 : BitVec 16).toNat]? = some 0x24) ∧
    divisor2Stepped.deg.toNat ≤ (2 : BitVec 16).toNat := by decide

theorem test_witness_DivisionStepCompletes : (Inv divisor2Stepped ∧ divisor2Stepped.deg ≠ 0) ∧ State.reset.deg = 0 :=
  ⟨⟨divisor2Stepped_inv, by decide⟩, by decide⟩

theorem test_witness_RemainderCommandCompletes :
    (Inv divisor2 ∧ divisor2.deg ≠ 0 ∧ (1 : BitVec 12).toNat + (2 : BitVec 12).toNat ≤ divisor2.cw.length) ∧
    divisor2.cw.length < (2 : BitVec 12).toNat + (2 : BitVec 12).toNat ∧
    ((0 : BitVec 12).toNat + (0 : BitVec 12).toNat ≤ State.reset.cw.length ∧ State.reset.deg = 0) :=
  ⟨⟨divisor2_inv, by decide, by decide⟩, by decide, by decide⟩

theorem test_witness_RemainderIsPolynomialRemainder : ([0x03, 0x02] : List Byte) ≠ [] := by decide

theorem test_witness_SteppingEqualsWholeDivision :
    Inv divisor2 ∧ divisor2.deg ≠ 0 ∧ (0 : BitVec 12).toNat + (3 : BitVec 12).toNat ≤ divisor2.cw.length :=
  ⟨divisor2_inv, by decide, by decide⟩

theorem test_witness_RemainderLaws :
    ([0x03, 0x02] : List Byte) ≠ [] ∧ ([1, 2, 3] : List Byte).length = ([4, 5, 6] : List Byte).length := by decide

theorem test_witness_SystematicCodewordVanishesAtRoots :
    (1 ≤ 1 ∧ 1 ≤ 255 ∧ 0 < 1) ∧ (1 ≤ 255 ∧ 255 ≤ 255 ∧ 254 < 255) := by decide

theorem test_witness_CodewordBufferCommandsComplete :
    divisor2.cw.length ≠ Config.cwMax ∧ fullCodewords.cw.length = Config.cwMax ∧
    divisor2.cw[(2 : BitVec 16).toNat]? = some 0x56 ∧ divisor2.cw.length ≤ (3 : BitVec 16).toNat := by
  refine ⟨by decide, by simp [fullCodewords], by decide, by decide⟩

theorem test_witness_SegmentTotalCompletes :
    (1 ≤ (1 : BitVec 8).toNat ∧ (1 : BitVec 8).toNat ≤ 40 ∧
      ∀ r ∈ (countOf 1023).seg, r.count < 2 ^ countWidth r.mode (1 : BitVec 8).toNat) ∧
    (1 ≤ (9 : BitVec 8).toNat ∧ (9 : BitVec 8).toNat ≤ 40 ∧
      ∃ r ∈ (countOf 1024).seg, 2 ^ countWidth r.mode (9 : BitVec 8).toNat ≤ r.count) ∧
    (1 ≤ (40 : BitVec 8).toNat ∧ (40 : BitVec 8).toNat ≤ 40 ∧
      ∀ r ∈ (countOf 1024).seg, r.count < 2 ^ countWidth r.mode (40 : BitVec 8).toNat) ∧
    ((0 : BitVec 8).toNat < 1 ∧ 40 < (41 : BitVec 8).toNat) := by decide

theorem payloadOf_needed (n : Nat) (t : List Byte) : neededBits (payloadOf n t).seg 10 = 20 + n := by
  simp [neededBits, payloadOf, countWidth, widthRow]

theorem test_witness_ConcatenationCompletes :
    (1 ≤ (10 : BitVec 8).toNat ∧ (10 : BitVec 8).toNat ≤ 40 ∧
      neededBits (payloadOf (Config.bbMax - 20) []).seg (10 : BitVec 8).toNat ≤ Config.bbMax ∧
      ∀ r ∈ (payloadOf (Config.bbMax - 20) []).seg, r.count < 2 ^ countWidth r.mode (10 : BitVec 8).toNat) ∧
    (1 ≤ (10 : BitVec 8).toNat ∧ (10 : BitVec 8).toNat ≤ 40 ∧
      Config.bbMax < neededBits (payloadOf (Config.bbMax - 19) []).seg (10 : BitVec 8).toNat) ∧
    (1 ≤ (1 : BitVec 8).toNat ∧ (1 : BitVec 8).toNat ≤ 40 ∧
      neededBits (countOf 1024).seg (1 : BitVec 8).toNat ≤ Config.bbMax ∧
      ∃ r ∈ (countOf 1024).seg, 2 ^ countWidth r.mode (1 : BitVec 8).toNat ≤ r.count) ∧
    ((0 : BitVec 8).toNat < 1 ∧ 40 < (41 : BitVec 8).toNat) := by
  have h : (10 : BitVec 8).toNat = 10 := rfl
  refine ⟨⟨by decide, by decide, ?_, ?_⟩, ⟨by decide, by decide, ?_⟩, by decide, by decide⟩
  · rw [h, payloadOf_needed]; decide
  · simp [payloadOf, countWidth, widthRow]
  · rw [h, payloadOf_needed]; decide

theorem test_witness_TerminatorCompletes :
    (8 * (4096 : BitVec 16).toNat ≤ Config.bbMax ∧ (withBits 41).bb.length ≤ 8 * (4096 : BitVec 16).toNat) ∧
    (8 * (1 : BitVec 16).toNat ≤ Config.bbMax ∧ (withBits 8).bb.length ≤ 8 * (1 : BitVec 16).toNat) ∧
    Config.bbMax < 8 * (4097 : BitVec 16).toNat ∧
    (8 * (1 : BitVec 16).toNat ≤ Config.bbMax ∧ 8 * (1 : BitVec 16).toNat < (withBits 9).bb.length) := by decide

theorem test_witness_PaddingCompletes :
    (8 * (3 : BitVec 16).toNat ≤ Config.bbMax ∧ (withBits 8).bb.length % 8 = 0 ∧
      (withBits 8).bb.length ≤ 8 * (3 : BitVec 16).toNat) ∧
    Config.bbMax < 8 * (4097 : BitVec 16).toNat ∧
    (8 * (4096 : BitVec 16).toNat ≤ Config.bbMax ∧ (withBits 9).bb.length % 8 ≠ 0) ∧
    (8 * (1 : BitVec 16).toNat ≤ Config.bbMax ∧ (withBits 16).bb.length % 8 = 0 ∧
      8 * (1 : BitVec 16).toNat < (withBits 16).bb.length) := by decide

theorem test_witness_PackingCompletes :
    ((withBits Config.bbMax).bb.length % 8 = 0 ∧ (withBits Config.bbMax).bb.length / 8 ≤ Config.cwMax) ∧
    (withBits 9).bb.length % 8 ≠ 0 ∧
    ((withBits (Config.bbMax + 8)).bb.length % 8 = 0 ∧ Config.cwMax < (withBits (Config.bbMax + 8)).bb.length / 8) := by
  rw [withBits_length, withBits_length, withBits_length]; decide

theorem test_witness_AssemblySequenceCompletes :
    (1 ≤ (1 : BitVec 8).toNat ∧ (1 : BitVec 8).toNat ≤ 40 ∧ (6 : BitVec 16).toNat ≤ Config.cwMax ∧
      8 * (6 : BitVec 16).toNat ≤ Config.bbMax ∧
      (∀ r ∈ oneSegment.seg, r.count < 2 ^ countWidth r.mode (1 : BitVec 8).toNat) ∧
      neededBits oneSegment.seg (1 : BitVec 8).toNat ≤ 8 * (6 : BitVec 16).toNat) ∧
    8 * (5 : BitVec 16).toNat < neededBits oneSegment.seg (1 : BitVec 8).toNat := by decide

theorem test_witness_FormatEncodeCompletes : (31 : BitVec 8).toNat ≤ 31 ∧ 31 < (32 : BitVec 8).toNat := by decide

theorem test_witness_FormatDecodeExact :
    ((0x3745 : BitVec 18).toNat < 2 ^ 15 ∧ fmtDistance 0x3745 8 < 4 ∧
      ∀ g : BitVec 5, g ≠ 8 → fmtDistance 0x3745 8 < fmtDistance 0x3745 g) ∧
    (¬ ∃ f : BitVec 5, fmtDistance 0 f < 4 ∧ ∀ g : BitVec 5, g ≠ f → fmtDistance 0 f < fmtDistance 0 g) ∧
    2 ^ 15 ≤ (0x8000 : BitVec 18).toNat := by
  refine ⟨by decide +kernel, ?_, by decide⟩
  rintro ⟨f, hf, -⟩
  exact absurd hf (by revert f; decide +kernel)

theorem test_witness_FormatDecodeCorrectsThreeErrors : popcount (0x4081 : BitVec 15) ≤ 3 := by decide

theorem test_witness_VersionEncodeCompletes :
    (1 ≤ (1 : BitVec 8).toNat ∧ (1 : BitVec 8).toNat ≤ 40) ∧ (1 ≤ (40 : BitVec 8).toNat ∧ (40 : BitVec 8).toNat ≤ 40) ∧
    (0 : BitVec 8).toNat < 1 ∧ 40 < (41 : BitVec 8).toNat := by decide

theorem test_witness_VersionDecodeExact :
    (1 ≤ 7 ∧ 7 ≤ 40 ∧ verDistance 0x6D85 7 < 5 ∧
      ∀ u : Nat, 1 ≤ u → u ≤ 40 → u ≠ 7 → verDistance 0x6D85 7 < verDistance 0x6D85 u) ∧
    (¬ ∃ v : Nat, 1 ≤ v ∧ v ≤ 40 ∧ verDistance 0 v < 5 ∧
      ∀ u : Nat, 1 ≤ u → u ≤ 40 → u ≠ v → verDistance 0 v < verDistance 0 u) := by
  refine ⟨⟨by decide, by decide, by decide +kernel, ?_⟩, ?_⟩
  · have h : ∀ u ∈ List.range' 1 40, u ≠ 7 → verDistance 0x6D85 7 < verDistance 0x6D85 u := by decide +kernel
    exact fun u h1 h2 => h u (by simp; omega)
  · have h : ∀ v ∈ List.range' 1 40, ¬ verDistance 0 v < 5 := by decide +kernel
    rintro ⟨v, h1, h2, h3, -⟩
    exact h v (by simp; omega) h3

theorem test_witness_VersionDecodeCorrectsThreeErrors : 1 ≤ 40 ∧ 40 ≤ 40 ∧ popcount (0x20011 : BitVec 18) ≤ 3 := by decide

theorem test_witness_SyndromeCommandCompletes :
    (0x7FFF : BitVec 18).toNat < 2 ^ 15 ∧ 2 ^ 15 ≤ (0x8000 : BitVec 18).toNat := by decide

theorem test_witness_FormatCorrectionFixesThreeErrors : popcount (0x4081 : BitVec 15) ≤ 3 := by decide

theorem test_witness_FormatCorrectionOutcomes :
    (0x75CC : BitVec 18).toNat < 2 ^ 15 ∧ 2 ^ 15 ≤ (0x8000 : BitVec 18).toNat := by decide

theorem test_witness_StoredLocatorHasLowDegree :
    ∃ t, exec (.fmCor 0x75CC) State.reset = .next t ∧ t.status.code = .ok := by
  obtain ⟨t, h, hc⟩ := next_of_resp (r := exec (.fmCor 0x75CC) State.reset) (c := 0) (v := 0x23D6) (by decide +kernel)
  refine ⟨t, h, ?_⟩
  revert hc
  cases t.status.code <;> decide

theorem test_witness_ReadAfterWriteAnswersTheWrittenValue :
    (divisor2.cw.length < Config.cwMax ∧ ∃ t, exec (.cwPush 0xFF) divisor2 = .next t) ∧
    (Inv divisor2 ∧ (1 : BitVec 16).toNat < divisor2.deg.toNat ∧ (∃ t, exec (.cfWr 1 0xAB) divisor2 = .next t) ∧
      (0 : BitVec 16) ≠ 1 ∧ ∃ p, exec (.cfRd 0) divisor2 = .next p) ∧
    ((16 : BitVec 5).toNat ≤ 16 ∧ (0x8001 : BitVec 16).toNat < 2 ^ (16 : BitVec 5).toNat ∧
      (withBits 8).bb.length + (16 : BitVec 5).toNat ≤ Config.bbMax ∧
      (∃ t, exec (.bbApp 16 0x8001) (withBits 8) = .next t) ∧ 15 < (16 : BitVec 5).toNat) :=
  ⟨⟨by decide, _, rfl⟩, ⟨divisor2_inv, by decide, ⟨_, rfl⟩, by decide, _, rfl⟩,
    by decide, by decide, by decide, ⟨_, rfl⟩, by decide⟩

theorem test_witness_EachCommandWritesOnlyItsSpaces : ∃ t, exec .nop divisor2 = .next t :=
  ⟨_, rfl⟩

theorem test_witness_FailingCommandChangesNothingElse :
    (∃ t, exec (.rgRd 7) divisor2 = .next t ∧ t.status.code ≠ .ok) ∧ (∃ t, exec .nop divisor2 = .next t ∧ t.status.code = .ok) :=
  ⟨⟨_, rfl, by decide⟩, ⟨_, rfl, by decide⟩⟩

/-- Each outcome code of 60 R321 is answered by a command of its row. -/
theorem test_witness_CommandsRaiseOnlyTheirCodes :
    [exec (.rgRd 7) State.reset, exec .rmInit State.reset, exec .sgNum fullSegments, exec .sgNum (withText [0x3A]),
      exec .sgByt State.reset, exec (.asTerm 1) (withBits 9), exec (.fmDec 0) State.reset, exec (.vrDec 0) State.reset].map resp =
    [2, 3, 4, 5, 6, 7, 8, 9].map fun c => some (c, 0) := by decide +kernel

theorem test_witness_StatusIsNoInput : Instr.rgRd 0 ≠ .rgRd 1 ∧ ∃ t, exec (.rgRd 0) divisor2 = .next t :=
  ⟨by decide, _, rfl⟩

theorem test_witness_EveryPresentedWordEndsInANextState :
    (State.load [0xFFFFFFFF] State.reset).cmds[(State.load [0xFFFFFFFF] State.reset).idx]? = some 0xFFFFFFFF := by decide

theorem test_witness_StepKeepsInvariants :
    Inv (State.load [0x45000034] divisor2Stepped) ∧ ∃ t, step (State.load [0x45000034] divisor2Stepped) = .next t :=
  ⟨by constructor <;> first | decide | simp [State.load, divisor2Stepped, divisor2, State.reset], _, rfl⟩

theorem test_witness_StickyFlagCertifiesRun :
    State.reset.status.sticky = false ∧
    (∀ w ∈ [encode .nop, encode (.rgRd 7)], w ≠ encode .stClr ∧ w ≠ encode .rst) ∧
    (runWords [encode .nop] State.reset).1.status.sticky = false ∧
    (runWords [encode .nop, encode (.rgRd 7)] State.reset).1.status.sticky = true := by
  refine ⟨rfl, ?_, by decide +kernel, by decide +kernel⟩
  simp only [List.forall_mem_cons]
  exact ⟨by decide, by decide, by simp⟩

end Sys2Proof.Tests
end

section
/-! The state family (10_state.md): the reset state. -/

namespace Sys2Proof.Machine

open Sys2Proof.Safety

/-- R23: the code `OK` and a clear sticky flag read as the number 0. -/
theorem statusWord_ok_clear : statusWord { code := .ok, sticky := false } = 0 := by decide

/-- R41: a state with no divisor loaded and every buffer empty meets the invariants, whatever its registers hold. -/
theorem inv_of_buffers_empty {s : State} (hdeg : s.deg = 0) (hcoef : s.coef = []) (hrem : s.rem = [])
    (hcw : s.cw = []) (htx : s.tx = []) (hbb : s.bb = []) (hseg : s.seg = []) : Inv s where
  degBound := by simp [hdeg]
  coefLength := by simp [hcoef, hdeg]
  remLength := by simp [hrem, hdeg]
  cwBound := by simp [hcw]
  txBound := by simp [htx]
  bbBound := by simp [hbb]
  segBound := by simp [hseg]
  payloadBound := by simp [hseg, payloadBits]
  segSound := by simp [hseg]

/-- The base case of R41. -/
theorem inv_reset : Inv State.reset := inv_of_buffers_empty rfl rfl rfl rfl rfl rfl rfl

/-- Settles O58: the registers and buffers are those of the definition of `State.reset`, the two vectors are constant,
and the invariants hold because every buffer is empty. -/
theorem resetStateValues : Obligations.ResetStateValues :=
  ⟨rfl, statusWord_ok_clear, rfl, rfl, rfl, rfl, rfl, rfl, rfl, Vector.toList_replicate, Vector.toList_replicate,
    inv_reset⟩

end Sys2Proof.Machine
end

section
/-! The memory family (20_memory.md): the packing of the bit buffer into codewords. -/

namespace Sys2Proof.Machine

open Sys2Proof.Claims

/-! ## The model's endings are those of the statements -/

theorem ok_eq_next_done (v : Word) (s : State) : ok v s = .next (done v s) := rfl

theorem fail_eq_next_failed (k : Code) (s : State) : fail k s = .next (failed k s) := rfl

/-! ## The bits of a packed codeword -/

/-- R53: the bit at list position `j` has the weight of its distance from the end of the list. -/
theorem bitsToNat_testBit {bs : List Bool} {j : Nat} (hj : j < bs.length) :
    (bitsToNat bs).testBit (bs.length - 1 - j) = bs.getD j false := by
  induction bs generalizing j with
  | nil => simp at hj
  | cons b bs ih =>
    rw [bitsToNat_cons, Nat.mul_comm, Nat.testBit_two_pow_mul_add _ (bitsToNat_lt bs)]
    cases j with
    | zero => cases b <;> simp
    | succ j =>
      have hj : j < bs.length := by simpa using hj
      have hpos : (b :: bs).length - 1 - (j + 1) = bs.length - 1 - j := by
        rw [List.length_cons]; omega
      rw [hpos, if_pos (by omega), ih hj, List.getD_cons_succ]

/-- R53: bit `7 - b` of codeword `k` is the bit at position `8 k + b` of the sequence. -/
theorem packBytes_getLsbD {n : Nat} {bs : List Bool} {k b : Nat} (hn : 8 * n ≤ bs.length) (hk : k < n) (hb : b < 8) :
    ((packBytes n bs).getD k 0).getLsbD (7 - b) = bs.getD (8 * k + b) false := by
  have hlen : ((bs.drop (8 * k)).take 8).length = 8 := by
    rw [List.length_take, List.length_drop]; omega
  have hbit := bitsToNat_testBit (hlen.symm ▸ hb)
  rw [hlen] at hbit
  have hlow : 7 - b < 8 := by omega
  calc ((packBytes n bs).getD k 0).getLsbD (7 - b)
      = (bitsToNat ((bs.drop (8 * k)).take 8)).testBit (7 - b) := by
        rw [List.getD_eq_getElem?_getD, packBytes_getElem? n bs k hk, Option.getD_some, BitVec.getLsbD_ofNat,
          decide_eq_true hlow, Bool.true_and]
    _ = ((bs.drop (8 * k)).take 8).getD b false := hbit
    _ = bs.getD (8 * k + b) false := by
        simp [List.getD_eq_getElem?_getD, List.getElem?_take_of_lt hb]

@[simp] theorem packAll_length (bs : List Bool) : (packAll bs).length = bs.length / 8 := packBytes_length _ _

theorem packAll_getLsbD {bs : List Bool} {k b : Nat} (hk : k < bs.length / 8) (hb : b < 8) :
    ((packAll bs).getD k 0).getLsbD (7 - b) = bs.getD (8 * k + b) false :=
  packBytes_getLsbD (Nat.mul_div_le _ _) hk hb

/-! ## `AS.PACK` branch by branch (R199) -/

theorem exec_asPack (s : State) : exec .asPack s = execAsPack s := rfl

theorem execAsPack_aligned {s : State} (ha : s.bb.length % 8 = 0) (hc : s.bb.length / 8 ≤ Config.cwMax) :
    execAsPack s = ok (natWord (s.bb.length / 8)) (setCw (packAll s.bb) s) := by
  rw [execAsPack, if_neg (not_not.mpr ha), if_neg (Nat.not_lt.mpr hc)]

theorem execAsPack_unaligned {s : State} (ha : s.bb.length % 8 ≠ 0) : execAsPack s = fail .badState s := by
  rw [execAsPack, if_pos ha]

theorem execAsPack_overflow {s : State} (ha : s.bb.length % 8 = 0) (hc : Config.cwMax < s.bb.length / 8) :
    execAsPack s = fail .overflow s := by
  rw [execAsPack, if_neg (not_not.mpr ha), if_pos hc]

/-- Settles O36: the codewords are `packAll` of `BB`, known bit by bit, and the clauses are the branches of `AS.PACK`. -/
theorem packingCompletes : Obligations.PackingCompletes := by
  intro s
  rw [exec_asPack]
  refine ⟨fun ha hc => ⟨packAll s.bb, packAll_length s.bb, fun k b => packAll_getLsbD, ?_⟩, fun ha => ?_, fun ha hc => ?_⟩
  · rw [execAsPack_aligned ha hc, ok_eq_next_done]; rfl
  · rw [execAsPack_unaligned ha, fail_eq_next_failed]
  · rw [execAsPack_overflow ha hc, fail_eq_next_failed]

end Sys2Proof.Machine
end

section
/-! The encoding family (30_encoding.md): the words of the decoder are the words of the opcode table's rows (R75), and a
word of no row ends with `ILLEGAL_CMD` (R74, R76). -/

namespace Sys2Proof

open Sys2Proof.Machine Sys2Proof.Claims

/-! ## The slices of an argument field are the whole field when its must-be-zero bits are zero (R72, R74) -/

/-- A field whose upper `m` bits are zero is its lower `n` bits. -/
theorem zero_append_low_of_reserved {m n : Nat} {x : BitVec (m + n)} (h : x &&& (BitVec.allOnes m ++ 0#n) = 0) :
    0#m ++ x.extractLsb' 0 n = x := by
  have hhigh : x.extractLsb' n m = 0#m := by
    simpa [BitVec.extractLsb'_and, BitVec.extractLsb'_append_eq_left] using congrArg (BitVec.extractLsb' n m) h
  rw [← hhigh, BitVec.extractLsb'_append_extractLsb']

/-- The argument field whose operands are the slices format `f` takes from `arg` (R72). -/
def Format.slices (arg : BitVec 24) : Format → BitVec 24
  | .N => 0
  | .B => argB (arg.extractLsb' 0 8)
  | .BB => argBB (arg.extractLsb' 0 8) (arg.extractLsb' 8 8)
  | .I => argI (arg.extractLsb' 0 16)
  | .IV => argIV (arg.extractLsb' 0 16) (arg.extractLsb' 16 8)
  | .NV => argNV (arg.extractLsb' 16 5) (arg.extractLsb' 0 16)
  | .IK => argIK (arg.extractLsb' 0 16) (arg.extractLsb' 16 2)
  | .OL => argOL (arg.extractLsb' 0 12) (arg.extractLsb' 12 12)
  | .W => argW (arg.extractLsb' 0 18)
  | .M => argM (arg.extractLsb' 16 3) (arg.extractLsb' 0 8) (arg.extractLsb' 8 8)

theorem Format.slices_eq {f : Format} {arg : BitVec 24} (h : arg &&& f.reserved = 0) : f.slices arg = arg := by
  have join8 : arg.extractLsb' 8 8 ++ arg.extractLsb' 0 8 = arg.extractLsb' 0 16 :=
    BitVec.extractLsb'_append_extractLsb'_eq_extractLsb' rfl
  cases f with
  | N => exact h.symm.trans BitVec.and_allOnes
  | B => exact zero_append_low_of_reserved (m := 16) h
  | BB =>
    rw [Format.slices, argBB, join8]
    exact zero_append_low_of_reserved (m := 8) h
  | I => exact zero_append_low_of_reserved (m := 8) h
  | IV => exact BitVec.extractLsb'_append_extractLsb'
  | NV =>
    rw [Format.slices, argNV, BitVec.extractLsb'_append_extractLsb'_eq_extractLsb' (by rfl)]
    exact zero_append_low_of_reserved (m := 3) h
  | IK =>
    rw [Format.slices, argIK, BitVec.extractLsb'_append_extractLsb'_eq_extractLsb' (by rfl)]
    exact zero_append_low_of_reserved (m := 6) h
  | OL => exact BitVec.extractLsb'_append_extractLsb'
  | W => exact zero_append_low_of_reserved (m := 6) h
  | M =>
    rw [Format.slices, argM, join8, BitVec.extractLsb'_append_extractLsb'_eq_extractLsb' (by rfl)]
    exact zero_append_low_of_reserved (m := 5) h

/-! ## A decoded word encodes to itself -/

theorem checked_encodes {f : Format} {op : BitVec 8} {arg : BitVec 24} {i j : Instr} (h : checked f arg j = .ok i)
    (hj : encode j = op ++ f.slices arg) : encode i = op ++ arg := by
  unfold checked at h
  split at h
  next hz =>
    cases h
    rw [hj, Format.slices_eq hz]
  next => cases h

/-- R71, R72: every entry of the opcode map builds a command of that opcode whose operands are the format's slices. -/
theorem decodeParts_encodes {op : BitVec 8} {arg : BitVec 24} {i : Instr} (h : decodeParts op arg = .ok i) :
    encode i = op ++ arg := by
  have hop : op = BitVec.ofNat 8 op.toNat := by simp
  rw [hop]
  unfold decodeParts at h
  generalize op.toNat = n at h ⊢
  split at h
  case h_48 => cases h
  all_goals exact checked_encodes h rfl

theorem encode_of_decode {c : Word} {i : Instr} (h : decode c = .ok i) : encode i = c :=
  (decodeParts_encodes h).trans BitVec.extractLsb'_append_extractLsb'

/-! ## The rows of the opcode table are the rows of the commands (R75) -/

/-- The row of a command as `opcodeRows` writes it: mnemonic, match, mask. -/
def Instr.row (i : Instr) : String × Word × Word := (i.mnemonic, i.rowMatch, i.rowMask)

theorem row_mem_opcodeRows (i : Instr) : i.row ∈ opcodeRows := by
  cases i
  all_goals
    simp only [Instr.row, Instr.mnemonic, Instr.rowMatch, Instr.rowMask, Instr.opcode, Instr.format]
    decide

/-- The match word of a row decodes to a command of that row. -/
theorem exists_row_eq {r : String × Word × Word} (hr : r ∈ opcodeRows) : ∃ i : Instr, i.row = r := by
  have hrows : ∀ r ∈ opcodeRows, (decode r.2.1).map Instr.row = .ok r := by decide
  cases hd : decode r.2.1 with
  | error e => simpa [hd, Except.map] using hrows r hr
  | ok i => exact ⟨i, by simpa [hd, Except.map] using hrows r hr⟩

theorem inRow_iff {c : Word} {m : String} :
    InRow c m ↔ ∃ i : Instr, i.mnemonic = m ∧ c &&& i.rowMask = i.rowMatch := by
  constructor
  · rintro ⟨r, hr, hc⟩
    obtain ⟨i, rfl⟩ := exists_row_eq hr
    exact ⟨i, hc⟩
  · rintro ⟨i, hc⟩
    exact ⟨i.row, row_mem_opcodeRows i, hc⟩

theorem argField_reserved (i : Instr) : i.argField &&& i.format.reserved = 0 := by
  cases i <;> simp [Instr.argField, Instr.format, argB_reserved, argBB_reserved, argI_reserved, argIV_reserved,
    argNV_reserved, argIK_reserved, argOL_reserved, argW_reserved, argM_reserved]

/-- R75: the word of every command lies in the command's row. -/
theorem encode_and_rowMask (i : Instr) : encode i &&& i.rowMask = i.rowMatch :=
  append_mask (argField_reserved i)

/-- R75: a word of a command's row has the command's opcode and zero must-be-zero bits. -/
theorem fields_of_and_rowMask {c : Word} {i : Instr} (h : c &&& i.rowMask = i.rowMatch) :
    c.extractLsb' 24 8 = i.opcode ∧ c.extractLsb' 0 24 &&& i.format.reserved = 0 := by
  have hop := congrArg (BitVec.extractLsb' 24 8) h
  have harg := congrArg (BitVec.extractLsb' 0 24) h
  rw [Instr.rowMask, Instr.rowMatch, BitVec.extractLsb'_and] at hop harg
  rw [BitVec.extractLsb'_append_eq_left, BitVec.extractLsb'_append_eq_left] at hop
  rw [BitVec.extractLsb'_append_eq_right, BitVec.extractLsb'_append_eq_right] at harg
  exact ⟨BitVec.and_allOnes.symm.trans hop, harg⟩

/-- R74: the opcode of a command with an argument field that its format admits decodes to a command of that name. -/
theorem decodeParts_opcode (i : Instr) {arg : BitVec 24} (h : arg &&& i.format.reserved = 0) :
    ∃ j, decodeParts i.opcode arg = .ok j ∧ j.mnemonic = i.mnemonic := by
  cases i <;> exact ⟨_, if_pos h, rfl⟩

theorem inRow_of_decode {c : Word} {i : Instr} (h : decode c = .ok i) : InRow c i.mnemonic :=
  inRow_iff.mpr ⟨i, rfl, encode_of_decode h ▸ encode_and_rowMask i⟩

theorem exists_decode_of_inRow {c : Word} {m : String} (h : InRow c m) : ∃ i, decode c = .ok i ∧ i.mnemonic = m := by
  obtain ⟨i, rfl, hc⟩ := inRow_iff.mp h
  obtain ⟨hop, hz⟩ := fields_of_and_rowMask hc
  rw [decode, hop]
  exact decodeParts_opcode i hz

/-- Settles O5: the word of a command lies in its row and a decoded word is the word of its command; a word of a row has
the row's opcode and zero must-be-zero bits, which is all the decoder asks. -/
theorem wordIsCommandExactlyInItsRow : Obligations.WordIsCommandExactlyInItsRow := by
  refine ⟨fun c m => ⟨?_, exists_decode_of_inRow⟩, fun c i => encode_of_decode⟩
  rintro ⟨i, hi, rfl⟩
  exact inRow_of_decode hi

/-! ## A word of no row (R74, R76) -/

theorem exists_decode_error_of_inNoRow {c : Word} (h : InNoRow c) : ∃ e, decode c = .error e := by
  cases hd : decode c with
  | error e => exact ⟨e, rfl⟩
  | ok i =>
    obtain ⟨r, hr, _, hc⟩ := inRow_of_decode hd
    exact absurd hc (h r hr)

theorem step_of_decode_error {s : State} {c : Word} {e : DecodeError} (hc : s.cmds[s.idx]? = some c)
    (he : decode c = .error e) : step s = .next { failed .illegalCmd s with idx := s.idx + 1 } := by
  simp only [step, nextWord, hc, execWord, he, fail_eq_next_failed]
  rfl

/-- Settles O6: the decoder refuses a word of no row, and `step` ends a refused word with `ILLEGAL_CMD`. -/
theorem illegalWordChangesNothingElse : Obligations.IllegalWordChangesNothingElse := by
  intro s c hc hrow
  obtain ⟨e, he⟩ := exists_decode_error_of_inNoRow hrow
  exact step_of_decode_error hc he

end Sys2Proof
end

section
/-! The system family (40_system.md): `NOP`, `RST`, `ST.CLR` and the register reads. -/

namespace Sys2Proof.Machine

open Sys2Proof.Claims

/-! ## The commands that cannot fail (R100, R101, R103) -/

theorem exec_nop (s : State) : exec .nop s = ok 0 s := rfl

theorem exec_rst (s : State) : exec .rst s = ok 0 (resetCore s) := rfl

theorem exec_stClr (s : State) : exec .stClr s = ok 0 (setStatus (statusCleared s.status) s) := rfl

/-- R40, R101: the reset state is already one that a success with result 0 leaves. -/
theorem okState_zero_resetCore (s : State) : okState 0 (resetCore s) = resetCore s := rfl

/-- Settles O1: each command is one success with result 0, on the state as it was, reset, or with the flag cleared. -/
theorem systemCommandsComplete : Obligations.SystemCommandsComplete := by
  intro s
  refine ⟨?_, ?_, ?_⟩
  · rw [exec_nop, ok_eq_next_done]
  · rw [exec_rst, ok, okState_zero_resetCore, resetCore]
  · rw [exec_stClr, ok_eq_next_done]; rfl

/-! ## The register reads (R27, R102) -/

/-- R23, R321: `CODE` in bits 7:0 and `STICKY` in bit 8, as a number. -/
theorem statusWord_eq_num (st : Status) : statusWord st = num (codeNum st.code + 256 * st.sticky.toNat) := by
  obtain ⟨code, sticky⟩ := st
  cases code <;> cases sticky <;> rfl

theorem zext_eq_num {n : Nat} (v : BitVec n) : zext v = num v.toNat := (BitVec.ofNat_toNat 32 v).symm

/-- R27: the numbers above 6 are no register. -/
theorem registerValue_eq_none {n : Nat} (hn : 7 ≤ n) (s : State) : registerValue n s = none := by
  obtain ⟨m, rfl⟩ := Nat.exists_eq_add_of_le' hn
  rfl

theorem exec_rgRd_register {k : BitVec 8} {s : State} {v : Word} (h : registerValue k.toNat s = some v) :
    exec (.rgRd k) s = .next (done v s) := by
  rw [exec, execRgRd, h]
  exact ok_eq_next_done v s

theorem exec_rgRd_noRegister {k : BitVec 8} {s : State} (h : registerValue k.toNat s = none) :
    exec (.rgRd k) s = .next (failed .badOperand s) := by
  rw [exec, execRgRd, h]
  exact fail_eq_next_failed .badOperand s

/-- Settles O2: the chain of tests on `k` is the register table, with `STATUS` and `DEG` written as numbers. -/
theorem registerReadsComplete : Obligations.RegisterReadsComplete := by
  intro k s
  split_ifs with h0 h1 h2 h3 h4 h5 h6
  · exact exec_rgRd_register (h0 ▸ rfl)
  · rw [← statusWord_eq_num]
    exact exec_rgRd_register (h1 ▸ rfl)
  · rw [← zext_eq_num]
    exact exec_rgRd_register (h2 ▸ rfl)
  · exact exec_rgRd_register (h3 ▸ rfl)
  · exact exec_rgRd_register (h4 ▸ rfl)
  · exact exec_rgRd_register (h5 ▸ rfl)
  · exact exec_rgRd_register (h6 ▸ rfl)
  · have hk : 7 ≤ k.toNat := by bv_omega
    exact exec_rgRd_noRegister (registerValue_eq_none hk s)

end Sys2Proof.Machine
end

section
/-! The Galois-field family (41_gf.md): the multiplier on numbers, the tables of GF(2^8) as powers of 2, and the commands. -/

namespace Sys2Proof.Machine

open Sys2Proof.Claims

/-! ## The multiplier of GF(2^8) on numbers (R110) -/

theorem gf8Double_toNat (z : Byte) :
    (gf8Double z).toNat = if 128 ≤ z.toNat then (2 * z.toNat % 256) ^^^ 0x1D else 2 * z.toNat := by
  have hcarry : z.getLsbD 7 = true ↔ 128 ≤ z.toNat := by
    rw [← BitVec.msb_eq_getLsbD_last, BitVec.msb_eq_decide, decide_eq_true_iff]
  have hshift : (z <<< 1).toNat = 2 * z.toNat % 256 := by
    rw [BitVec.toNat_shiftLeft, Nat.shiftLeft_eq, Nat.mul_comm]
  simp only [gf8Double, hcarry]
  split
  next => rw [BitVec.toNat_xor, hshift]; rfl
  next => rw [hshift]; omega

theorem gf8MulStep_toNat (a b z : Byte) (i : Nat) :
    (gf8MulStep a b z i).toNat = gf8RefStep a.toNat b.toNat z.toNat i := by
  simp only [gf8MulStep, gf8RefStep, ← gf8Double_toNat, BitVec.testBit_toNat]
  split
  next => exact BitVec.toNat_xor ..
  next => rfl

/-- The loop on bytes is the loop on numbers, because each of its iterations is. -/
theorem gf8Mul_toNat (a b : Byte) : (gf8Mul a b).toNat = gf8Ref a.toNat b.toNat :=
  (List.foldl_hom BitVec.toNat fun z i => (gf8MulStep_toNat a b z i).symm).symm

theorem exec_gf8Mul (a b : BitVec 8) (s : State) : exec (.gf8Mul a b) s = .next (done (num (gf8Mul a b).toNat) s) := by
  rw [← zext_eq_num, ← ok_eq_next_done]
  rfl

/-- Settles O9: the result is the model's product, whose number is the product on numbers. -/
theorem gf8MultiplyCompletes : Obligations.Gf8MultiplyCompletes := by
  intro a b s
  rw [exec_gf8Mul, gf8Mul_toNat]

/-! ## The tables of GF(2^8) are powers of 2 and their exponents (R35) -/

theorem gf8Mul_two (z : Byte) : gf8Mul z 2 = gf8Double z := by
  simp [gf8Mul, gf8MulStep, gf8Double]

theorem pow8_succ (i : Nat) : pow8 (i + 1) = gf8Double (pow8 i) := by
  rw [pow8, Function.iterate_succ_apply', gf8Mul_two, ← pow8]

/-- R35: each entry of the printed `exp8` table is the double of the one before it. -/
theorem exp8_toNat_succ : ∀ i : Byte, i ≠ 255 → exp8 (i.toNat + 1) = gf8Double (exp8 i.toNat) := by decide

theorem exp8_succ {i : Nat} (hi : i < 255) : exp8 (i + 1) = gf8Double (exp8 i) := by
  have hne : BitVec.ofNatLT i (by omega) ≠ (255 : Byte) := fun h => hi.ne (congrArg BitVec.toNat h)
  exact exp8_toNat_succ _ hne

theorem exp8_eq_pow8 {i : Nat} (hi : i ≤ 255) : exp8 i = pow8 i := by
  induction i with
  | zero => rfl
  | succ i ih => rw [exp8_succ (by omega), pow8_succ, ih (by omega)]

theorem log8_lt : ∀ a : Byte, log8 a < 255 := by decide

/-- R35: the printed `log8` table has, for each non-zero byte, a position of that byte in the printed `exp8` table. -/
theorem exp8_log8 : ∀ a : Byte, a ≠ 0 → exp8 (log8 a) = a := by decide

theorem pow8_log8 {a : Byte} (ha : a ≠ 0) : pow8 (log8 a) = a := by
  rw [← exp8_eq_pow8 (log8_lt a).le, exp8_log8 a ha]

theorem exec_gf8Exp (i : BitVec 8) (s : State) : exec (.gf8Exp i) s = .next (done (num (exp8 i.toNat).toNat) s) := by
  rw [← zext_eq_num, ← ok_eq_next_done]
  rfl

theorem exec_gf8Log (a : BitVec 8) (s : State) : exec (.gf8Log a) s = .next (done (num (log8 a)) s) :=
  ok_eq_next_done ..

/-- Settles O11: `exp8` is the powers of 2, its last entry is 1 again, and `log8` is its inverse on the non-zero bytes. -/
theorem gf8TableReadsComplete : Obligations.Gf8TableReadsComplete := by
  intro s
  refine ⟨fun i => ?_, fun a ha => ⟨log8 a, log8_lt a, pow8_log8 ha, exec_gf8Log a s⟩, exec_gf8Log 0 s⟩
  rw [exec_gf8Exp]
  split
  next hi => rw [hi]; rfl
  next => rw [exp8_eq_pow8 (Nat.le_of_lt_succ i.isLt)]

/-! ## The commands of GF(2^4) branch by branch (R119 to R121) -/

theorem setWidth_four_toNat {a : BitVec 8} (ha : a.toNat ≤ 15) : (a.setWidth 4).toNat = a.toNat := by
  rw [BitVec.toNat_setWidth, Nat.mod_eq_of_lt (by omega)]

theorem setWidth_four_eq_zero {a : BitVec 8} (ha : a.toNat ≤ 15) : a.setWidth 4 = 0 ↔ a = 0 := by
  rw [BitVec.toNat_eq, BitVec.toNat_eq, setWidth_four_toNat ha]
  rfl

theorem exec_gf4Mul_large {a b : BitVec 8} (s : State) (h : 15 < a.toNat ∨ 15 < b.toNat) :
    exec (.gf4Mul a b) s = .next (failed .badOperand s) := by
  rw [exec, execGf4Mul, if_pos h, fail_eq_next_failed]

/-- R117, R119: the product through the tables, the test for zero made on the operands. -/
theorem exec_gf4Mul_small {a b : BitVec 8} (s : State) (ha : a.toNat ≤ 15) (hb : b.toNat ≤ 15) :
    exec (.gf4Mul a b) s = .next (done (zext (if a = 0 ∨ b = 0 then 0
      else exp4 ((log4 (a.setWidth 4) + log4 (b.setWidth 4)) % 15))) s) := by
  rw [exec, execGf4Mul, if_neg (by omega), ok_eq_next_done, gf4Mul, mulF]
  simp only [setWidth_four_eq_zero ha, setWidth_four_eq_zero hb]
  rfl

theorem exec_gf4Exp_large {i : BitVec 8} (s : State) (h : 15 < i.toNat) :
    exec (.gf4Exp i) s = .next (failed .badOperand s) := by
  rw [exec, execGf4Exp, if_pos h, fail_eq_next_failed]

theorem exec_gf4Exp_small {i : BitVec 8} (s : State) (h : i.toNat ≤ 15) :
    exec (.gf4Exp i) s = .next (done (num (exp4 i.toNat).toNat) s) := by
  rw [exec, execGf4Exp, if_neg (Nat.not_lt.mpr h), ok_eq_next_done, zext_eq_num]

theorem exec_gf4Log_large {a : BitVec 8} (s : State) (h : 15 < a.toNat) :
    exec (.gf4Log a) s = .next (failed .badOperand s) := by
  rw [exec, execGf4Log, if_pos h, fail_eq_next_failed]

theorem exec_gf4Log_small {a : BitVec 8} (s : State) (h : a.toNat ≤ 15) :
    exec (.gf4Log a) s = .next (done (num (log4Table.getD a.toNat 0)) s) := by
  rw [exec, execGf4Log, if_neg (Nat.not_lt.mpr h), ok_eq_next_done, log4, setWidth_four_toNat h]
  rfl

theorem exp4_toNat (i : Nat) : (exp4 i).toNat = (exp4Table.map BitVec.toNat).getD i 0 :=
  (List.getD_map ..).symm

/-- Settles O12: each command refuses an operand above 15, and otherwise answers from the tables of R36. -/
theorem gf4CommandsComplete : Obligations.Gf4CommandsComplete := by
  intro s
  refine ⟨fun a b => ?_, fun i => ?_, fun a => ?_⟩
  · split_ifs with hlarge hzero
    · exact exec_gf4Mul_large s hlarge
    · rw [exec_gf4Mul_small s (by omega) (by omega), if_pos hzero]; rfl
    · rw [exec_gf4Mul_small s (by omega) (by omega), if_neg hzero]
  · split_ifs with hlarge
    · exact exec_gf4Exp_large s hlarge
    · rw [exec_gf4Exp_small s (Nat.not_lt.mp hlarge), exp4_toNat]; rfl
  · split_ifs with hlarge
    · exact exec_gf4Log_large s hlarge
    · exact exec_gf4Log_small s (Nat.not_lt.mp hlarge)

end Sys2Proof.Machine
end

section
/-! The buffer and segment family (42_bitbuf_segments.md): the bit and text buffers, the payloads field by field, and the
segment builders. -/

namespace Sys2Proof.Machine

open Sys2Proof.Claims

/-! ## Indexed reads and builders branch by branch (20 R65, 42 R141) -/

theorem readAt_of_getElem? {α : Type} {buf : List α} {i : Nat} {x : α} (h : buf[i]? = some x) (f : α → Word)
    (s : State) : readAt buf i f s = ok (f x) s := by
  rw [readAt, h]

theorem readAt_of_length_le {α : Type} {buf : List α} {i : Nat} (h : buf.length ≤ i) (f : α → Word) (s : State) :
    readAt buf i f s = fail .badOperand s := by
  rw [readAt, List.getElem?_eq_none h]

section
variable {f : List Byte → Segment} {cs : Byte → Bool} {eo : Bool} {s : State}

theorem build_listFull (hseg : s.seg.length = Config.segMax) : build f cs eo s = fail .overflow s := by
  rw [build, if_pos hseg]

theorem build_emptyRefused (hseg : s.seg.length ≠ Config.segMax) (hempty : (!eo && s.tx.isEmpty) = true) :
    build f cs eo s = fail .segEmpty s := by
  rw [build, if_neg hseg, if_pos hempty]

variable (hseg : s.seg.length ≠ Config.segMax) (hempty : (!eo && s.tx.isEmpty) = false)
include hseg hempty

theorem build_charsetRefused (hcs : s.tx.all cs = false) : build f cs eo s = fail .segCharset s := by
  rw [build, if_neg hseg, hempty, hcs]
  rfl

theorem build_payloadTooLong (hcs : s.tx.all cs = true)
    (hlen : Config.bbMax < payloadBits s.seg + (f s.tx).bits.length) : build f cs eo s = fail .overflow s := by
  rw [build, if_neg hseg, hempty, hcs, if_pos hlen]
  rfl

theorem build_appends (hcs : s.tx.all cs = true) (hlen : payloadBits s.seg + (f s.tx).bits.length ≤ Config.bbMax) :
    build f cs eo s = ok (natWord (f s.tx).bits.length) (setSeg (s.seg ++ [f s.tx]) s) := by
  rw [build, if_neg hseg, hempty, hcs, if_neg (Nat.not_lt.mpr hlen)]
  rfl

end

/-! ## Fields of a bit list (20 R52) -/

theorem field_eq_bitsToNat (bits : List Bool) (start width : Nat) :
    field bits start width = bitsToNat ((bits.drop start).take width) := rfl

theorem field_append_right (pre bits : List Bool) (start width : Nat) :
    field (pre ++ bits) (pre.length + start) width = field bits start width := by
  rw [field_eq_bitsToNat, field_eq_bitsToNat, List.drop_length_add_append]

/-- In a row of fields of `n` bits, a field in front moves the others on by one place. -/
theorem field_bitsOf_append_succ (n v k : Nat) (bits : List Bool) (width : Nat) :
    field (bitsOf n v ++ bits) (n * (k + 1)) width = field bits (n * k) width := by
  rw [Nat.mul_succ, Nat.add_comm]
  simpa using field_append_right (bitsOf n v) bits (n * k) width

theorem field_bitsOf_append_left {n v : Nat} (hv : v < 2 ^ n) (bits : List Bool) :
    field (bitsOf n v ++ bits) 0 n = v := by
  rw [field_eq_bitsToNat, List.drop_zero, List.take_left' (bitsOf_length n v), bitsToNat_bitsOf, Nat.mod_eq_of_lt hv]

theorem field_bitsOf {n v : Nat} (hv : v < 2 ^ n) : field (bitsOf n v) 0 n = v := by
  simpa using field_bitsOf_append_left hv []

/-! ## The payload of a byte segment (R140) -/

theorem byteBits_cons (c : Byte) (t : List Byte) : byteBits (c :: t) = bitsOf 8 c.toNat ++ byteBits t := rfl

theorem byteBits_field {t : List Byte} {j : Nat} (hj : j < t.length) :
    field (byteBits t) (8 * j) 8 = (t.getD j 0).toNat := by
  induction t generalizing j with
  | nil => simp at hj
  | cons c t ih =>
    rw [byteBits_cons]
    cases j with
    | zero => exact field_bitsOf_append_left c.isLt _
    | succ j =>
      rw [field_bitsOf_append_succ, List.getD_cons_succ]
      exact ih (by simpa using hj)

/-! ## The alphanumeric characters and the payload of their segment (10 R37, 42 R138) -/

theorem alnumTable_toNat : alnumTable.map BitVec.toNat = alnumChars := by decide

theorem isAlnum_iff (c : Byte) : isAlnum c = true ↔ c.toNat ∈ alnumChars := by
  rw [← alnumTable_toNat, List.mem_map_of_injective BitVec.toNat_injective, isAlnum, List.contains_iff_mem]

theorem all_isAlnum_iff (t : List Byte) : t.all isAlnum = true ↔ ∀ c ∈ t, c.toNat ∈ alnumChars := by
  simp only [List.all_eq_true, isAlnum_iff]

/-- R37: the position of a byte in the table of bytes is the position of its number in the listing. -/
theorem charValue_eq_alnumValue (t : List Byte) (j : Nat) : charValue t j = alnumValue (t.getD j 0) := by
  have hinj (c : Byte) : (fun n : Nat => n == c.toNat) ∘ BitVec.toNat = fun b : Byte => b == c :=
    funext fun b => by simp [BitVec.toNat_inj]
  rw [charValue, ← alnumTable_toNat, List.idxOf, List.findIdx_map, hinj, alnumValue, List.idxOf]

theorem alnumValue_lt {c : Byte} (h : isAlnum c = true) : alnumValue c < 45 :=
  List.idxOf_lt_length_of_mem (List.contains_iff_mem.mp h)

/-- A pair of values below 45 fits 11 bits: `45 * 45 ≤ 2^11`. -/
theorem alnumPair_lt {a b : Byte} (ha : isAlnum a = true) (hb : isAlnum b = true) :
    alnumValue a * 45 + alnumValue b < 2 ^ 11 := by
  have := alnumValue_lt ha
  have := alnumValue_lt hb
  omega

/-- R138: field `g` of 11 bits is the pair of characters `2 g` and `2 g + 1`. -/
theorem alnumBits_field_pair {t : List Byte} (ht : t.all isAlnum = true) {g : Nat} (hg : g < t.length / 2) :
    field (alnumBits t) (11 * g) 11 = charValue t (2 * g) * 45 + charValue t (2 * g + 1) := by
  induction t using alnumBits.induct generalizing g with
  | case1 a b rest ih =>
    simp only [List.all_cons, Bool.and_eq_true] at ht
    obtain ⟨ha, hb, hrest⟩ := ht
    rw [alnumBits]
    cases g with
    | zero =>
      rw [charValue_eq_alnumValue, charValue_eq_alnumValue]
      exact field_bitsOf_append_left (alnumPair_lt ha hb) _
    | succ g =>
      rw [field_bitsOf_append_succ]
      exact ih hrest (by simp only [List.length_cons] at hg; omega)
  | case2 a => simp at hg
  | case3 => simp at hg

/-- R138: the 6 bits behind the pairs are the odd last character. -/
theorem alnumBits_field_last {t : List Byte} (ht : t.all isAlnum = true) (hodd : t.length % 2 = 1) :
    field (alnumBits t) (11 * (t.length / 2)) 6 = charValue t (t.length - 1) := by
  induction t using alnumBits.induct with
  | case1 a b rest ih =>
    simp only [List.all_cons, Bool.and_eq_true] at ht
    obtain ⟨-, -, hrest⟩ := ht
    have hlen : (a :: b :: rest).length = rest.length + 2 := rfl
    have hodd : rest.length % 2 = 1 := by omega
    have hpairs : (a :: b :: rest).length / 2 = rest.length / 2 + 1 := by omega
    have hlast : (a :: b :: rest).length - 1 = rest.length - 1 + 2 := by omega
    rw [alnumBits, hpairs, field_bitsOf_append_succ, ih hrest hodd, hlast]
    rfl
  | case2 a =>
    have ha : isAlnum a = true := by simpa using ht
    have hfits : alnumValue a < 2 ^ 6 := (alnumValue_lt ha).trans (by decide)
    rw [charValue_eq_alnumValue, alnumBits, List.length_singleton]
    exact field_bitsOf hfits
  | case3 => simp at hodd

/-! ## `SG.BYT` and `SG.ALN` (R144, R145) -/

theorem exec_sgAln (s : State) : exec .sgAln s = build segAln isAlnum true s := rfl

theorem exec_sgByt (s : State) : exec .sgByt s = build segByt (fun _ => true) false s := rfl

/-- Settles O17: the payload is `alnumBits` of `TX`, known field by field, and the clauses are the branches of `build`. -/
theorem alphanumericSegmentCompletes : Obligations.AlphanumericSegmentCompletes := by
  rintro s _ rfl
  rw [exec_sgAln, ← alnumBits_length]
  refine ⟨fun hseg hcs hlen => ?_, build_listFull, fun hseg hcs => ?_, fun hseg hcs hlen => ?_⟩
  · have hall := (all_isAlnum_iff s.tx).mpr hcs
    exact ⟨alnumBits s.tx, rfl, fun g => alnumBits_field_pair hall, alnumBits_field_last hall,
      build_appends hseg rfl hall hlen⟩
  · refine build_charsetRefused hseg rfl (Bool.eq_false_iff.mpr fun hall => ?_)
    obtain ⟨c, hc, hout⟩ := hcs
    exact hout ((all_isAlnum_iff s.tx).mp hall c hc)
  · exact build_payloadTooLong hseg rfl ((all_isAlnum_iff s.tx).mpr hcs) hlen

/-- Settles O18: the payload is `byteBits` of `TX`, known byte by byte, and the clauses are the branches of `build`. -/
theorem byteSegmentCompletes : Obligations.ByteSegmentCompletes := by
  rintro s _ rfl
  have hall : s.tx.all (fun _ => true) = true := List.all_eq_true.mpr fun _ _ => rfl
  have hrefused : (!false && s.tx.isEmpty) = true ↔ s.tx.length = 0 := by simp
  have hadmitted (hn : s.tx.length ≠ 0) : (!false && s.tx.isEmpty) = false := Bool.eq_false_iff.mpr (hrefused.not.mpr hn)
  rw [exec_sgByt, ← byteBits_length]
  refine ⟨fun hn hseg hlen => ?_, build_listFull, fun hseg hn => ?_, fun hseg hn hlen => ?_⟩
  · exact ⟨byteBits s.tx, rfl, fun j => byteBits_field, build_appends hseg (hadmitted hn) hall hlen⟩
  · exact build_emptyRefused hseg (hrefused.mpr hn)
  · exact build_payloadTooLong hseg (hadmitted hn) hall hlen

/-! ## `BB.APP` (R132) -/

theorem exec_bbApp_badField {n : BitVec 5} {v : BitVec 16} (s : State) (h : 16 < n.toNat ∨ 2 ^ n.toNat ≤ v.toNat) :
    exec (.bbApp n v) s = .next (failed .badOperand s) := by
  rw [exec, execBbApp, fail_eq_next_failed]
  by_cases hn : 16 < n.toNat
  · rw [if_pos hn]
  · rw [if_neg hn, if_pos (h.resolve_left hn)]

section
variable {n : BitVec 5} {v : BitVec 16} {s : State} (hn : n.toNat ≤ 16) (hv : v.toNat < 2 ^ n.toNat)
include hn hv

theorem exec_bbApp_overflow (hlen : Config.bbMax < s.bb.length + n.toNat) :
    exec (.bbApp n v) s = .next (failed .overflow s) := by
  rw [exec, execBbApp, if_neg (Nat.not_lt.mpr hn), if_neg (Nat.not_le.mpr hv), if_pos hlen, fail_eq_next_failed]

theorem exec_bbApp_fits (hlen : s.bb.length + n.toNat ≤ Config.bbMax) :
    exec (.bbApp n v) s =
      .next (done (num (s.bb.length + n.toNat)) { s with bb := s.bb ++ bitsOf n.toNat v.toNat }) := by
  rw [exec, execBbApp, if_neg (Nat.not_lt.mpr hn), if_neg (Nat.not_le.mpr hv), if_neg (Nat.not_lt.mpr hlen), endWithBb,
    bbAppend_length, ok_eq_next_done]
  rfl

end

/-- Settles O14: the appended bits are `bitsOf n v`, known one by one, and the clauses are the branches of `BB.APP`. -/
theorem bitFieldAppendCompletes : Obligations.BitFieldAppendCompletes := by
  intro n v s
  refine ⟨fun hn hv hlen => ?_, exec_bbApp_badField s, exec_bbApp_overflow⟩
  exact ⟨bitsOf n.toNat v.toNat, bitsOf_length _ _, fun k => bitsOf_getElem? _ _ k, exec_bbApp_fits hn hv hlen⟩

/-! ## The other buffer commands and the segment list (R131, R133 to R135, R142, R146) -/

theorem exec_txPush_full {s : State} (c : BitVec 8) (h : s.tx.length = Config.txMax) :
    exec (.txPush c) s = .next (failed .overflow s) := by
  rw [exec, execTxPush, if_pos h, fail_eq_next_failed]

theorem exec_txPush_room {s : State} (c : BitVec 8) (h : s.tx.length ≠ Config.txMax) :
    exec (.txPush c) s = .next (done (num (s.tx.length + 1)) { s with tx := s.tx ++ [c] }) := by
  rw [exec, execTxPush, if_neg h, ok_eq_next_done]
  rfl

/-- Settles O15: an index is in the buffer or refused, a push finds room or is refused, and a clear always completes. -/
theorem bitAndTextBufferCommandsComplete : Obligations.BitAndTextBufferCommandsComplete := fun s =>
  ⟨rfl, fun _ _ hb => readAt_of_getElem? hb bitWord s, fun _ hi => readAt_of_length_le hi bitWord s, rfl,
    exec_txPush_room, exec_txPush_full⟩

theorem exec_sgRd_noField (i : BitVec 16) (s : State) : exec (.sgRd i 3) s = .next (failed .badOperand s) := rfl

theorem exec_sgRd_field {k : BitVec 2} (hk : k ≠ 3) (i : BitVec 16) (s : State) :
    exec (.sgRd i k) s = readAt s.seg i.toNat (segmentField k.toNat) s :=
  if_neg fun h => hk (BitVec.eq_of_toNat_eq h)

theorem exec_sgRd_record {i : BitVec 16} {r : Segment} {s : State} (hr : s.seg[i.toNat]? = some r) {k : BitVec 2}
    (hk : k ≠ 3) : exec (.sgRd i k) s = .next (done (segmentField k.toNat r) s) := by
  rw [exec_sgRd_field hk, readAt_of_getElem? hr, ok_eq_next_done]

theorem exec_sgRd_noRecord {i : BitVec 16} {s : State} (hi : s.seg.length ≤ i.toNat) (k : BitVec 2) :
    exec (.sgRd i k) s = .next (failed .badOperand s) := by
  by_cases hk : k = 3
  · rw [hk, exec_sgRd_noField]
  · rw [exec_sgRd_field hk, readAt_of_length_le hi, fail_eq_next_failed]

theorem zext_modeIndicator (m : Mode) : zext (modeIndicator m) = num (indicator m) := by
  cases m <;> rfl

/-- Settles O19: field 0 of a record is its mode indicator as a number, and every other index or field is refused. -/
theorem segmentListClearAndReadComplete : Obligations.SegmentListClearAndReadComplete := by
  intro s
  refine ⟨rfl, fun i r hr => ⟨?_, exec_sgRd_record hr (by decide), exec_sgRd_record hr (by decide)⟩,
    fun i => exec_sgRd_noField i s, fun i k hi => exec_sgRd_noRecord hi k⟩
  rw [exec_sgRd_record hr (by decide), ← zext_modeIndicator]
  rfl

end Sys2Proof.Machine
end

section
/-! The Reed-Solomon family (43_rs_encoder.md): the generator loop against the polynomial product, the division step slot by
slot, and the window and codeword buffer commands. -/

namespace Sys2Proof.Machine

open Sys2Proof.Safety Sys2Proof.Claims

/-! ## The product of the linear factors (R160) -/

theorem gf8Mul_zero_left (b : Byte) : gf8Mul 0 b = 0 := by
  simp [gf8Mul, gf8MulStep, gf8Double]

theorem gf8Mul_pow8_two (i : Nat) : gf8Mul (pow8 i) 2 = pow8 (i + 1) := by
  rw [gf8Mul_two, pow8_succ]

theorem genPoly_succ (d : Nat) : genPoly (d + 1) = mulLinear (genPoly d) (pow8 d) := by
  rw [genPoly, List.range_succ, List.foldl_append, ← genPoly]
  rfl

/-- The factor `x - r` leaves the leading coefficient as it is. -/
theorem mulLinear_cons (c : Byte) (g : List Byte) (r : Byte) :
    mulLinear (c :: g) r = c :: List.zipWith (· ^^^ ·) (g ++ [0]) ((c :: g).map (gf8Mul · r)) := by
  simp [mulLinear]

/-- A zero in front of the highest power stays one. -/
theorem mulLinear_replicate_zero_append (n : Nat) (g : List Byte) (r : Byte) :
    mulLinear (List.replicate n 0 ++ g) r = List.replicate n 0 ++ mulLinear g r := by
  induction n with
  | zero => rfl
  | succ n ih =>
    rw [List.replicate_succ, List.cons_append, List.cons_append, ← ih, mulLinear_cons, List.map_cons, gf8Mul_zero_left,
      mulLinear]

theorem genPoly_head? (d : Nat) : (genPoly d).head? = some 1 := by
  induction d with
  | zero => rfl
  | succ d ih =>
    obtain ⟨g, hg⟩ := List.head?_eq_some_iff.mp ih
    rw [genPoly_succ, hg, mulLinear_cons, List.head?_cons]

/-! ## The in-place loop computes that product (R161) -/

/-- A pass multiplies by `x - root` in place, so the highest coefficient of the product drops out of the array. -/
theorem rsGenPass_eq_tail_mulLinear (root : Byte) (c : List Byte) : rsGenPass root c = (mulLinear c root).tail := by
  cases c with
  | nil => rfl
  | cons a c =>
    rw [mulLinear_cons, List.tail_cons, List.zipWith_map_right, List.zipWith_comm]
    simp only [rsGenPass, List.tail_cons, BitVec.xor_comm]

/-- The loop with `n` passes left holds the product so far behind `n - 1` zeros: each pass but the last drops a zero, and the
last drops the leading 1. -/
theorem rsGenLoop_genPoly (n k : Nat) :
    rsGenLoop (n + 1) (pow8 k) (List.replicate n 0 ++ genPoly k) = (genPoly (k + (n + 1))).tail := by
  induction n generalizing k with
  | zero => rw [rsGenLoop, rsGenLoop, rsGenPass_eq_tail_mulLinear, List.replicate_zero, List.nil_append, genPoly_succ]
  | succ n ih =>
    rw [rsGenLoop, rsGenPass_eq_tail_mulLinear, mulLinear_replicate_zero_append, ← genPoly_succ, gf8Mul_pow8_two,
      List.replicate_succ, List.cons_append, List.tail_cons, ih, Nat.add_right_comm k 1, Nat.add_assoc k]

theorem rsGen_eq_tail_genPoly {d : Nat} (hd : 1 ≤ d) : rsGen d = (genPoly d).tail := by
  obtain ⟨n, rfl⟩ := Nat.exists_eq_add_of_le' hd
  have hloop := rsGenLoop_genPoly n 0
  rw [Nat.zero_add] at hloop
  exact hloop

/-! ## Loading a divisor (R166, R167) -/

theorem loadDegree_inRange {d : BitVec 8} (h1 : 1 ≤ d.toNat) (h2 : d.toNat ≤ Config.degMax) (c : Nat → List Byte)
    (s : State) : loadDegree c d s = .next (done (num d.toNat)
      { s with deg := d, coef := c d.toNat, rem := List.replicate d.toNat 0 }) := by
  rw [loadDegree, if_neg (by omega), ok_eq_next_done, zext_eq_num]
  rfl

theorem loadDegree_outOfRange {d : BitVec 8} (h : d.toNat = 0 ∨ Config.degMax < d.toNat) (c : Nat → List Byte)
    (s : State) : loadDegree c d s = .next (failed .badOperand s) := by
  rw [loadDegree, if_pos h, fail_eq_next_failed]

theorem exec_cfGen (d : BitVec 8) (s : State) : exec (.cfGen d) s = loadDegree rsGen d s := rfl

/-- Settles O20: the loop's coefficients are the product's behind its leading 1, and a degree is in range or refused. -/
theorem generatorCommandCompletes : Obligations.GeneratorCommandCompletes := by
  intro d s
  rw [exec_cfGen]
  refine ⟨fun h1 h2 => ⟨genPoly_head? d.toNat, ?_⟩, fun h => loadDegree_outOfRange h rsGen s⟩
  rw [loadDegree_inRange h1 h2, rsGen_eq_tail_genPoly h1]

/-! ## The division step slot by slot (R162) -/

theorem rsStep_factor (W C : List Byte) (b : Byte) : (rsStep W C b).2 = b ^^^ W.getD 0 0 := by
  cases W <;> rfl

/-- Slot `i` of the shifted window is slot `i + 1` of the old one, or the 0 that enters at the back. -/
theorem tail_append_zero_getD (W : List Byte) (i : Nat) : (W.tail ++ [0]).getD i 0 = W.getD (i + 1) 0 := by
  rw [List.getD_eq_getElem?_getD, List.getD_eq_getElem?_getD, ← List.getElem?_tail]
  by_cases hi : i < W.tail.length
  · rw [List.getElem?_append_left hi]
  · rw [List.getElem?_append_right (Nat.not_lt.mp hi), List.getElem?_eq_none (Nat.not_lt.mp hi)]
    cases i - W.tail.length <;> rfl

/-- R162 for a window of the divisor's length (10 R41 item 1). -/
theorem rsStep_window {W C : List Byte} (hlen : W.length = C.length) (hC : C ≠ []) (b : Byte) :
    (rsStep W C b).1 = windowAfter C W b := by
  have hwindow : (windowAfter C W b).length = C.length := by simp [windowAfter]
  refine List.ext_getElem ((rsStep_length W C b hlen hC).trans hwindow.symm) fun i _ hi => ?_
  rw [hwindow] at hi
  have hpos : 0 < C.length := by omega
  have hshift : i < (W.tail ++ [0]).length := by simp; omega
  calc (rsStep W C b).1[i]
      = (W.tail ++ [0])[i] ^^^ gf8Mul C[i] (rsStep W C b).2 := List.getElem_zipWith
    _ = W.getD (i + 1) 0 ^^^ gf8Mul (C.getD i 0) (b ^^^ W.getD 0 0) := by
      rw [← List.getD_eq_getElem _ 0 hshift, tail_append_zero_getD, ← List.getD_eq_getElem _ 0 hi, rsStep_factor]
    _ = (windowAfter C W b)[i] := by simp [windowAfter]

/-- R41 item 1: a loaded divisor has a coefficient. -/
theorem coef_ne_nil {s : State} (hinv : Inv s) (hdeg : s.deg ≠ 0) : s.coef ≠ [] := by
  intro hnil
  have hlen := hinv.coefLength
  rw [hnil, List.length_nil] at hlen
  exact hdeg (BitVec.eq_of_toNat_eq hlen.symm)

theorem exec_rmStep_noDivisor {s : State} (b : BitVec 8) (h : s.deg = 0) :
    exec (.rmStep b) s = .next (failed .badState s) := by
  rw [exec, execRmStep, if_pos h, fail_eq_next_failed]

theorem exec_rmStep_divisor {s : State} (b : BitVec 8) (h : s.deg ≠ 0) :
    exec (.rmStep b) s = .next (done (num (rsStep s.rem s.coef b).2.toNat)
      { s with rem := (rsStep s.rem s.coef b).1 }) := by
  rw [exec, execRmStep, if_neg h, ok_eq_next_done, zext_eq_num]
  rfl

/-- Settles O24: with a divisor loaded the command is one step of the divider, known slot by slot. -/
theorem divisionStepCompletes : Obligations.DivisionStepCompletes := by
  intro b s
  refine ⟨fun hinv hdeg => ?_, exec_rmStep_noDivisor b⟩
  have hlen : s.rem.length = s.coef.length := hinv.remLength.trans hinv.coefLength.symm
  rw [exec_rmStep_divisor b hdeg, rsStep_factor, rsStep_window hlen (coef_ne_nil hinv hdeg)]

/-! ## The division of a slice (R163, R173) -/

/-- The window has the divisor's length before every step, so each step is the one slot by slot. -/
theorem foldl_rsStep_eq_foldl_windowAfter {C : List Byte} (hC : C ≠ []) (D : List Byte) {W : List Byte}
    (hlen : W.length = C.length) :
    D.foldl (fun W b => (rsStep W C b).1) W = D.foldl (windowAfter C) W := by
  induction D generalizing W with
  | nil => rfl
  | cons b D ih => rw [List.foldl_cons, List.foldl_cons, ih (rsStep_length W C b hlen hC), rsStep_window hlen hC]

theorem rsRem_eq_foldl_windowAfter {C : List Byte} (hC : C ≠ []) (D : List Byte) :
    rsRem D C = D.foldl (windowAfter C) (List.replicate C.length 0) :=
  foldl_rsStep_eq_foldl_windowAfter hC D List.length_replicate

theorem exec_rsRem_badSlice {off len : BitVec 12} {s : State} (h : s.cw.length < off.toNat + len.toNat) :
    exec (.rsRem off len) s = .next (failed .badOperand s) := by
  rw [exec, execRsRem, if_pos h, fail_eq_next_failed]

section
variable {off len : BitVec 12} {s : State} (hslice : off.toNat + len.toNat ≤ s.cw.length)
include hslice

theorem exec_rsRem_noDivisor (h : s.deg = 0) : exec (.rsRem off len) s = .next (failed .badState s) := by
  rw [exec, execRsRem, if_neg (Nat.not_lt.mpr hslice), if_pos h, fail_eq_next_failed]

theorem exec_rsRem_divisor (h : s.deg ≠ 0) :
    exec (.rsRem off len) s = .next (done (num s.deg.toNat)
      { s with rem := rsRem ((s.cw.drop off.toNat).take len.toNat) s.coef }) := by
  rw [exec, execRsRem, if_neg (Nat.not_lt.mpr hslice), if_neg h, ok_eq_next_done, zext_eq_num]
  rfl

end

/-- Settles O25: the slice is tested first and the divisor second, and what is left is the fold of the division steps. -/
theorem remainderCommandCompletes : Obligations.RemainderCommandCompletes := by
  intro off len s
  refine ⟨fun hinv hdeg hslice => ?_, exec_rsRem_badSlice, exec_rsRem_noDivisor⟩
  rw [exec_rsRem_divisor hslice hdeg, rsRem_eq_foldl_windowAfter (coef_ne_nil hinv hdeg), hinv.coefLength]

/-! ## `RM.INIT` and `RM.RD` (R170, R172) -/

theorem exec_rmInit_divisor {s : State} (h : s.deg ≠ 0) :
    exec .rmInit s = .next (done 0 { s with rem := List.replicate s.deg.toNat 0 }) := by
  rw [exec, execRmInit, if_neg h, ok_eq_next_done]
  rfl

theorem exec_rmInit_noDivisor {s : State} (h : s.deg = 0) : exec .rmInit s = .next (failed .badState s) := by
  rw [exec, execRmInit, if_pos h, fail_eq_next_failed]

theorem exec_rmRd_outside {i : BitVec 16} {s : State} (h : s.deg.toNat ≤ i.toNat) :
    exec (.rmRd i) s = .next (failed .badOperand s) := by
  rw [exec, execRmRd, if_pos h, fail_eq_next_failed]

theorem exec_rmRd_inside {i : BitVec 16} {c : Byte} {s : State} (hi : i.toNat < s.deg.toNat)
    (hc : s.rem[i.toNat]? = some c) : exec (.rmRd i) s = .next (done (num c.toNat) s) := by
  rw [exec, execRmRd, if_neg (Nat.not_le.mpr hi), readAt_of_getElem? hc, ok_eq_next_done, zext_eq_num]

/-- Settles O23: a divisor is loaded or not, and an index that reads a byte of a window of length `DEG` lies below `DEG`. -/
theorem windowCommandsComplete : Obligations.WindowCommandsComplete := by
  intro s
  refine ⟨exec_rmInit_divisor, exec_rmInit_noDivisor, fun i c hlen hc => ?_, fun i => exec_rmRd_outside⟩
  obtain ⟨hi, -⟩ := List.getElem?_eq_some_iff.mp hc
  exact exec_rmRd_inside (hlen ▸ hi) hc

/-! ## `CW.CLR`, `CW.PUSH`, `CW.RD` (R174 to R176) -/

theorem exec_cwPush_full {s : State} (b : BitVec 8) (h : s.cw.length = Config.cwMax) :
    exec (.cwPush b) s = .next (failed .overflow s) := by
  rw [exec, execCwPush, if_pos h, fail_eq_next_failed]

theorem exec_cwPush_room {s : State} (b : BitVec 8) (h : s.cw.length ≠ Config.cwMax) :
    exec (.cwPush b) s = .next (done (num (s.cw.length + 1)) { s with cw := s.cw ++ [b] }) := by
  rw [exec, execCwPush, if_neg h, ok_eq_next_done]
  rfl

theorem exec_cwRd_inside {i : BitVec 16} {c : Byte} {s : State} (hc : s.cw[i.toNat]? = some c) :
    exec (.cwRd i) s = .next (done (num c.toNat) s) := by
  rw [exec, execCwRd, readAt_of_getElem? hc, ok_eq_next_done, zext_eq_num]

theorem exec_cwRd_outside {i : BitVec 16} {s : State} (hi : s.cw.length ≤ i.toNat) :
    exec (.cwRd i) s = .next (failed .badOperand s) := by
  rw [exec, execCwRd, readAt_of_length_le hi, fail_eq_next_failed]

/-- Settles O30: a clear always completes, a push finds room or is refused, and an index is in the buffer or refused. -/
theorem codewordBufferCommandsComplete : Obligations.CodewordBufferCommandsComplete := fun _ =>
  ⟨rfl, exec_cwPush_room, exec_cwPush_full, fun _ _ => exec_cwRd_inside, fun _ => exec_cwRd_outside⟩

end Sys2Proof.Machine
end

section
/-! The assembler family (44_assembler.md): the total and the stream of a segment list, the terminator, the alignment and the
pad codewords. -/

namespace Sys2Proof.Machine

open Sys2Proof.Claims

/-! ## Widths and totals (R191, R192) -/

theorem ccBits_eq_countWidth (m : Mode) (ver : Nat) : ccBits m ver = countWidth m ver := by
  have htier1 : ver ≤ 9 ↔ ver < 10 := Nat.lt_succ_iff.symm
  have htier2 : ver ≤ 26 ↔ ver < 27 := Nat.lt_succ_iff.symm
  simp only [ccBits, countWidth, htier1, htier2]
  cases m <;> split_ifs <;> rfl

theorem segTotal_eq_neededBits (L : List Segment) (ver : Nat) : segTotal L ver = neededBits L ver := by
  simp only [segTotal, neededBits, ccBits_eq_countWidth]

theorem countsFit_iff (L : List Segment) (ver : Nat) :
    countsFit L ver = true ↔ ∀ r ∈ L, r.count < 2 ^ countWidth r.mode ver := by
  simp only [countsFit, List.all_eq_true, decide_eq_true_eq, ccBits_eq_countWidth]

theorem countsFit_eq_false_iff (L : List Segment) (ver : Nat) :
    countsFit L ver = false ↔ ∃ r ∈ L, 2 ^ countWidth r.mode ver ≤ r.count := by
  simp only [countsFit, List.all_eq_false, decide_eq_true_eq, Nat.not_lt, ccBits_eq_countWidth]

theorem versionBad_iff (ver : BitVec 8) : versionBad ver = true ↔ ver.toNat < 1 ∨ 40 < ver.toNat := by
  simp only [versionBad, Bool.or_eq_true, decide_eq_true_eq]

theorem versionBad_eq_false {ver : BitVec 8} (h1 : 1 ≤ ver.toNat) (h40 : ver.toNat ≤ 40) : versionBad ver = false :=
  Bool.eq_false_iff.mpr fun h => ((versionBad_iff ver).mp h).elim (Nat.not_lt.mpr h1) (Nat.not_lt.mpr h40)

/-! ## The stream of a segment list (30 R83, 44 R193) -/

theorem bitsOf_eq_map_range (n v : Nat) : bitsOf n v = (List.range n).map fun k => v.testBit (n - 1 - k) := by
  refine List.ext_getElem? fun k => ?_
  by_cases hk : k < n
  · rw [bitsOf_getElem? n v k hk, List.getElem?_map, List.getElem?_range hk, Option.map_some]
  · rw [List.getElem?_eq_none (by simpa using hk), List.getElem?_eq_none (by simpa using hk)]

theorem modeIndicator_toNat (m : Mode) : (modeIndicator m).toNat = indicator m := by
  cases m <;> rfl

theorem segmentStream_eq_segmentBits (ver : Nat) (r : Segment) : segmentStream ver r = segmentBits ver r := by
  rw [segmentStream, bbAppend, bbAppend, List.nil_append, modeIndicator_toNat, ccBits_eq_countWidth,
    bitsOf_eq_map_range 4, bitsOf_eq_map_range (countWidth r.mode ver)]
  rfl

theorem asCat_eq_flatMap_segmentBits (L : List Segment) (ver : Nat) : asCat L ver = L.flatMap (segmentBits ver) := by
  rw [asCat, funext (segmentStream_eq_segmentBits ver)]

/-! ## `SG.TOT` and `AS.CAT` branch by branch (R194, R195) -/

theorem endWithBb_eq_next_done (bits : List Bool) (s : State) :
    endWithBb bits s = .next (done (num bits.length) { s with bb := bits }) := rfl

section
variable {ver : BitVec 8} {s : State}

theorem exec_sgTot_outOfRange (hver : ver.toNat < 1 ∨ 40 < ver.toNat) :
    exec (.sgTot ver) s = .next (failed .badOperand s) := by
  rw [exec, execSgTot, if_pos ((versionBad_iff ver).mpr hver), fail_eq_next_failed]

theorem exec_asCat_outOfRange (hver : ver.toNat < 1 ∨ 40 < ver.toNat) :
    exec (.asCat ver) s = .next (failed .badOperand s) := by
  rw [exec, execAsCat, if_pos ((versionBad_iff ver).mpr hver), fail_eq_next_failed]

variable (h1 : 1 ≤ ver.toNat) (h40 : ver.toNat ≤ 40)
include h1 h40

theorem exec_sgTot_inRange :
    exec (.sgTot ver) s = if !countsFit s.seg ver.toNat then fail .capacity s
      else ok (num (neededBits s.seg ver.toNat)) s := by
  rw [exec, execSgTot, versionBad_eq_false h1 h40, segTotal_eq_neededBits]
  rfl

theorem exec_asCat_overflow (hlen : Config.bbMax < neededBits s.seg ver.toNat) :
    exec (.asCat ver) s = .next (failed .overflow s) := by
  rw [exec, execAsCat, versionBad_eq_false h1 h40, segTotal_eq_neededBits, if_pos hlen, fail_eq_next_failed]
  rfl

theorem exec_asCat_room (hlen : neededBits s.seg ver.toNat ≤ Config.bbMax) :
    exec (.asCat ver) s = if !countsFit s.seg ver.toNat then fail .capacity s
      else endWithBb (s.seg.flatMap (segmentBits ver.toNat)) s := by
  rw [exec, execAsCat, versionBad_eq_false h1 h40, segTotal_eq_neededBits, if_neg (Nat.not_lt.mpr hlen),
    asCat_eq_flatMap_segmentBits]
  rfl

end

/-- Settles O31: the model's total and its test of the counts are those of R191's table of widths, and the clauses are the
branches of `SG.TOT`. -/
theorem segmentTotalCompletes : Obligations.SegmentTotalCompletes := by
  intro ver s
  refine ⟨fun h1 h40 hfit => ?_, fun h1 h40 hout => ?_, exec_sgTot_outOfRange⟩
  · rw [exec_sgTot_inRange h1 h40, (countsFit_iff _ _).mpr hfit, ok_eq_next_done]
    rfl
  · rw [exec_sgTot_inRange h1 h40, (countsFit_eq_false_iff _ _).mpr hout, fail_eq_next_failed]
    rfl

/-- Settles O32: the model's stream of a segment is the indicator, count and payload of R83 bit by bit, and the clauses are
the branches of `AS.CAT`. -/
theorem concatenationCompletes : Obligations.ConcatenationCompletes := by
  intro ver s
  refine ⟨fun h1 h40 hlen hfit => ?_, exec_asCat_overflow, fun h1 h40 hlen hout => ?_, exec_asCat_outOfRange⟩
  · rw [exec_asCat_room h1 h40 hlen, (countsFit_iff _ _).mpr hfit, endWithBb_eq_next_done]
    rfl
  · rw [exec_asCat_room h1 h40 hlen, (countsFit_eq_false_iff _ _).mpr hout, fail_eq_next_failed]
    rfl

/-! ## The terminator and the alignment (R196, R197) -/

section
variable {cap : BitVec 16} {s : State}

theorem exec_asTerm_badCapacity (hcap : Config.bbMax < 8 * cap.toNat) :
    exec (.asTerm cap) s = .next (failed .badOperand s) := by
  rw [exec, execAsTerm, if_pos hcap, fail_eq_next_failed]

variable (hcap : 8 * cap.toNat ≤ Config.bbMax)
include hcap

theorem exec_asTerm_tooLong (hlen : 8 * cap.toNat < s.bb.length) :
    exec (.asTerm cap) s = .next (failed .capacity s) := by
  rw [exec, execAsTerm, if_neg (Nat.not_lt.mpr hcap), if_pos hlen, fail_eq_next_failed]

theorem exec_asTerm_fits (hlen : s.bb.length ≤ 8 * cap.toNat) :
    exec (.asTerm cap) s =
      endWithBb (s.bb ++ List.replicate (min 4 (8 * cap.toNat - s.bb.length)) false) s := by
  rw [exec, execAsTerm, if_neg (Nat.not_lt.mpr hcap), if_neg (Nat.not_lt.mpr hlen), terminatorLength]

end

/-- Settles O33: the clauses are the branches of `AS.TERM`. -/
theorem terminatorCompletes : Obligations.TerminatorCompletes := by
  intro cap s
  refine ⟨fun hcap hlen => ?_, exec_asTerm_badCapacity, exec_asTerm_tooLong⟩
  rw [exec_asTerm_fits hcap hlen, endWithBb_eq_next_done, List.length_append, List.length_replicate]

/-- Settles O34: `alignLength` is below 8 and reaches the byte boundary. -/
theorem alignmentCompletes : Obligations.AlignmentCompletes := by
  intro s
  refine ⟨alignLength s.bb.length, alignLength_lt _, alignLength_mod _, ?_⟩
  rw [exec, execAsAlign, endWithBb_eq_next_done, List.length_append, List.length_replicate]

/-! ## The pad codewords (30 R88, 44 R198) -/

/-- R88: every pair of pad codewords is 0xEC, 0x11, so the parity of the position tells which one stands there. -/
theorem padBits_field {n j : Nat} (hj : j < n) :
    field (padBits n) (8 * j) 8 = if j % 2 = 0 then 0xEC else 0x11 := by
  induction n using padBits.induct generalizing j with
  | case1 => omega
  | case2 =>
    obtain rfl : j = 0 := by omega
    exact field_bitsOf (by decide)
  | case3 n ih =>
    rw [padBits]
    match j with
    | 0 => exact field_bitsOf_append_left (by decide) _
    | 1 =>
      rw [field_bitsOf_append_succ]
      exact field_bitsOf_append_left (by decide) _
    | j + 2 =>
      rw [field_bitsOf_append_succ, field_bitsOf_append_succ, ih (by omega), Nat.add_mod_right]

section
variable {cap : BitVec 16} {s : State}

theorem exec_asPad_badCapacity (hcap : Config.bbMax < 8 * cap.toNat) :
    exec (.asPad cap) s = .next (failed .badOperand s) := by
  rw [exec, execAsPad, if_pos hcap, fail_eq_next_failed]

variable (hcap : 8 * cap.toNat ≤ Config.bbMax)
include hcap

theorem exec_asPad_unaligned (ha : s.bb.length % 8 ≠ 0) : exec (.asPad cap) s = .next (failed .badState s) := by
  rw [exec, execAsPad, if_neg (Nat.not_lt.mpr hcap), if_pos ha, fail_eq_next_failed]

variable (ha : s.bb.length % 8 = 0)
include ha

theorem exec_asPad_tooLong (hlen : 8 * cap.toNat < s.bb.length) :
    exec (.asPad cap) s = .next (failed .capacity s) := by
  rw [exec, execAsPad, if_neg (Nat.not_lt.mpr hcap), if_neg (not_not.mpr ha), if_pos hlen, fail_eq_next_failed]

theorem exec_asPad_fits (hlen : s.bb.length ≤ 8 * cap.toNat) :
    exec (.asPad cap) s = endWithBb (s.bb ++ padBits ((8 * cap.toNat - s.bb.length) / 8)) s := by
  rw [exec, execAsPad, if_neg (Nat.not_lt.mpr hcap), if_neg (not_not.mpr ha), if_neg (Nat.not_lt.mpr hlen)]

end

/-- Settles O35: the pad is `padBits`, known codeword by codeword, its length is the room left because `BBLEN` is a multiple
of 8, and the clauses are the branches of `AS.PAD`. -/
theorem paddingCompletes : Obligations.PaddingCompletes := by
  intro cap s
  refine ⟨fun hcap ha hlen => ?_, exec_asPad_badCapacity, exec_asPad_unaligned, exec_asPad_tooLong⟩
  have hpad : (padBits ((8 * cap.toNat - s.bb.length) / 8)).length = 8 * cap.toNat - s.bb.length := by
    rw [padBits_length]; omega
  have hfull : s.bb.length + (8 * cap.toNat - s.bb.length) = 8 * cap.toNat := by omega
  refine ⟨_, hpad, fun j hj => padBits_field (by omega), ?_⟩
  rw [exec_asPad_fits hcap ha hlen, endWithBb_eq_next_done, List.length_append, hpad, hfull]

end Sys2Proof.Machine
end

section
/-! The BCH family (46_bch.md): the shift loop as long division over GF(2), and the nearest-match decoders. -/

namespace Sys2Proof.Machine

open Sys2Proof.Claims

/-! ## Products of polynomials over GF(2) -/

theorem clmul_succ (n q g : Nat) : clmul (n + 1) q g = clmul n q g ^^^ if q.testBit n then g <<< n else 0 := by
  rw [clmul, List.range_succ, List.foldl_concat, ← clmul]
  split_ifs <;> simp

theorem clmul_bit (n q g : Nat) (b : Bool) :
    clmul (n + 1) (Nat.bit b q) g = clmul n q g <<< 1 ^^^ if b then g else 0 := by
  induction n with
  | zero => rw [clmul_succ, Nat.testBit_bit_zero]; simp [clmul]
  | succ n ih =>
    rw [clmul_succ, ih, Nat.testBit_bit_succ, clmul_succ n, Nat.shiftLeft_xor_distrib, Nat.xor_right_comm]
    split_ifs <;> simp [Nat.shiftLeft_add]

/-! ## The shift loop (R221, R227) -/

/-- One step of the shift loop for a generator `g` of degree `d + 1`; `fmtStep` and `verStep` are two cases of it. -/
def shiftStep {d : Nat} (g r : BitVec (d + 2)) : BitVec (d + 2) :=
  if r.getLsbD d then r <<< 1 ^^^ g else r <<< 1

theorem fmtStep_eq_shiftStep : fmtStep = shiftStep (d := 9) 0x537 := rfl

theorem verStep_eq_shiftStep : verStep = shiftStep (d := 11) 0x1F25 := rfl

section
variable {d k : Nat} {g r : BitVec (d + 2)}

/-- Below the degree of `g` the loop only shifts. -/
theorem shiftStep_iterate_setWidth (g : BitVec (d + 2)) (v : BitVec k) {n : Nat} (h : n + k ≤ d + 1) :
    (shiftStep g)^[n] (v.setWidth (d + 2)) = v.setWidth (d + 2) <<< n := by
  induction n with
  | zero => simp
  | succ n ih =>
    have hbit : (v.setWidth (d + 2) <<< n).getLsbD d = false := by
      simp [BitVec.getLsbD_of_ge v (d - n) (by omega)]
    rw [Function.iterate_succ_apply', ih (by omega), shiftStep, hbit, BitVec.shiftLeft_add]
    rfl

/-- The leading term of `g` cancels the term of degree `d + 1` that the shift brings in. -/
theorem shiftStep_msb (hg : g.msb = true) : (shiftStep g r).msb = false := by
  have hshift : (r <<< 1).msb = r.getLsbD d := by simp [BitVec.msb_eq_getLsbD_last]
  rw [shiftStep]
  split_ifs with h
  · rw [BitVec.msb_xor, hshift, h, hg]; rfl
  · rw [hshift, Bool.eq_false_iff.mpr h]

theorem shiftStep_toNat (hr : r.msb = false) :
    (shiftStep g r).toNat = r.toNat <<< 1 ^^^ if r.getLsbD d then g.toNat else 0 := by
  have hshift : (r <<< 1).toNat = r.toNat <<< 1 := by
    rw [BitVec.toNat_shiftLeft, Nat.mod_eq_of_lt]
    rwa [Nat.shiftLeft_eq, mul_comm, pow_one, ← BitVec.msb_eq_false_iff_two_mul_lt]
  rw [shiftStep]
  split_ifs
  · rw [BitVec.toNat_xor, hshift]
  · rw [hshift, Nat.xor_zero]

/-- `n` steps are `n` steps of long division: what they leave and `r·x^n` differ by a multiple of `g`. -/
theorem shiftStep_iterate_multiple (hg : g.msb = true) (hr : r.msb = false) (n : Nat) :
    ((shiftStep g)^[n] r).msb = false ∧
    ∃ q < 2 ^ n, r.toNat <<< n ^^^ ((shiftStep g)^[n] r).toNat = clmul n q g.toNat := by
  induction n with
  | zero => exact ⟨hr, 0, by simp [clmul]⟩
  | succ n ih =>
    obtain ⟨hmsb, q, hq, hmul⟩ := ih
    rw [Function.iterate_succ_apply']
    refine ⟨shiftStep_msb hg, Nat.bit (((shiftStep g)^[n] r).getLsbD d) q, Nat.bit_lt_two_pow_succ_iff.mpr hq, ?_⟩
    rw [clmul_bit, ← hmul, shiftStep_toNat hmsb, Nat.shiftLeft_add, Nat.shiftLeft_xor_distrib, Nat.xor_assoc]

theorem toNat_append_eq_xor {n : Nat} (v : BitVec k) (p : BitVec n) : (v ++ p).toNat = v.toNat <<< n ^^^ p.toNat := by
  rw [BitVec.toNat_append]
  refine Nat.eq_of_testBit_eq fun i => ?_
  rcases lt_or_ge i n with h | h
  · simp [Nat.not_le.mpr h]
  · simp [h, p.isLt.trans_le (Nat.pow_le_pow_right two_pos h), Nat.testBit_lt_two_pow]

/-- Data above the remainder of `v·x^(d+1)`: a code word, with a quotient as wide as the data. -/
theorem append_remainder_eq_clmul (hg : g.msb = true) (v : BitVec k) {m : Nat} (h : m + k = d + 1) :
    ∃ q < 2 ^ k, (v ++ ((shiftStep g)^[k + m] (v.setWidth (d + 2))).setWidth (d + 1)).toNat = clmul k q g.toNat := by
  have hlt : 2 * (v.toNat <<< m) < 2 ^ (d + 2) := by
    rw [Nat.pow_succ', ← h, Nat.add_comm m k]
    exact Nat.mul_lt_mul_of_pos_left (Nat.shiftLeft_lt v.isLt) two_pos
  have hnat : (v.setWidth (d + 2) <<< m).toNat = v.toNat <<< m := by
    rw [BitVec.toNat_shiftLeft, BitVec.toNat_setWidth_of_le (by omega), Nat.mod_eq_of_lt (by omega)]
  have hmsb : (v.setWidth (d + 2) <<< m).msb = false := by
    rw [BitVec.msb_eq_false_iff_two_mul_lt, hnat]; exact hlt
  obtain ⟨hrem, q, hq, hmul⟩ := shiftStep_iterate_multiple hg hmsb k
  refine ⟨q, hq, ?_⟩
  rw [Function.iterate_add_apply, shiftStep_iterate_setWidth g v h.le, ← hmul, hnat, ← Nat.shiftLeft_add, h,
    toNat_append_eq_xor, BitVec.toNat_setWidth, Nat.mod_eq_of_lt (b := 2 ^ (d + 1)) (BitVec.toNat_lt_of_msb_false hrem)]

end

/-- R221, R222: the unmasked word is a code word of the generator 0x537. -/
theorem append_fmtParity_eq_clmul (f : BitVec 5) : ∃ q < 32, (f ++ fmtParity f).toNat = clmul 5 q 0x537 := by
  rw [fmtParity, fmtStep_eq_shiftStep]
  exact append_remainder_eq_clmul (d := 9) (g := 0x537) rfl f (m := 5) rfl

/-- R227: the word is a code word of the generator 0x1F25. -/
theorem verEnc_eq_clmul (v : BitVec 6) : ∃ q < 64, (verEnc v).toNat = clmul 6 q 0x1F25 := by
  rw [verEnc, verParity, verStep_eq_shiftStep]
  exact append_remainder_eq_clmul (d := 11) (g := 0x1F25) rfl v (m := 6) rfl

/-! ## `FM.ENC` and `VR.ENC` (R224, R229) -/

theorem toNat_append_eq_mul_add {k n : Nat} (v : BitVec k) (p : BitVec n) :
    (v ++ p).toNat = v.toNat * 2 ^ n + p.toNat := by
  rw [BitVec.toNat_append, ← Nat.shiftLeft_add_eq_or_of_lt p.isLt, Nat.shiftLeft_eq]

theorem exec_fmEnc_large {f : BitVec 8} (s : State) (h : 31 < f.toNat) :
    exec (.fmEnc f) s = .next (failed .badOperand s) := by
  rw [exec, execFmEnc, if_pos h, fail_eq_next_failed]

theorem exec_fmEnc_small {f : BitVec 8} (s : State) (h : f.toNat ≤ 31) :
    exec (.fmEnc f) s = .next (done (num (fmtEnc (f.setWidth 5)).toNat) s) := by
  rw [exec, execFmEnc, if_neg (Nat.not_lt.mpr h), ok_eq_next_done, zext_eq_num]

/-- Settles O39: the loop is long division by 0x537, so the data above its remainder is a multiple of it. -/
theorem formatEncodeCompletes : Obligations.FormatEncodeCompletes := by
  intro f s
  refine ⟨fun h => ?_, exec_fmEnc_large s⟩
  obtain ⟨q, hq, hmul⟩ := append_fmtParity_eq_clmul (f.setWidth 5)
  have hword : (f.setWidth 5 ++ fmtParity (f.setWidth 5)).toNat =
      f.toNat * 1024 + (fmtParity (f.setWidth 5)).toNat := by
    rw [toNat_append_eq_mul_add, BitVec.toNat_setWidth, Nat.mod_eq_of_lt (by omega)]; rfl
  refine ⟨_, q, (fmtParity (f.setWidth 5)).isLt, hq, hword ▸ hmul, ?_⟩
  rw [exec_fmEnc_small s h, fmtEnc, BitVec.toNat_xor, hword]
  rfl

theorem exec_vrEnc_outOfRange {v : BitVec 8} (s : State) (h : v.toNat < 1 ∨ 40 < v.toNat) :
    exec (.vrEnc v) s = .next (failed .badOperand s) := by
  rw [exec, execVrEnc, if_pos h, fail_eq_next_failed]

theorem exec_vrEnc_inRange {v : BitVec 8} (s : State) (h1 : 1 ≤ v.toNat) (h40 : v.toNat ≤ 40) :
    exec (.vrEnc v) s = .next (done (num (verEnc (v.setWidth 6)).toNat) s) := by
  rw [exec, execVrEnc, if_neg (by omega), ok_eq_next_done, zext_eq_num]

/-- Settles O42: the loop is long division by 0x1F25, so the version above its remainder is a multiple of it. -/
theorem versionEncodeCompletes : Obligations.VersionEncodeCompletes := by
  intro v s
  refine ⟨fun h1 h40 => ?_, exec_vrEnc_outOfRange s⟩
  obtain ⟨q, hq, hmul⟩ := verEnc_eq_clmul (v.setWidth 6)
  have hword : (verEnc (v.setWidth 6)).toNat = v.toNat * 4096 + (verParity (v.setWidth 6)).toNat := by
    rw [verEnc, toNat_append_eq_mul_add, BitVec.toNat_setWidth, Nat.mod_eq_of_lt (by omega)]; rfl
  refine ⟨_, q, (verParity (v.setWidth 6)).isLt, hq, hword ▸ hmul, ?_⟩
  rw [exec_vrEnc_inRange s h1 h40, hword]

/-! ## The nearest-match decoders (R223, R225, R228, R230) -/

theorem nearestMatch_eq_some_iff {t : Nat} {dist : Nat → Nat} {refs : List Nat} (hn : refs.Nodup) (r : Nat) :
    nearestMatch t dist refs = some r ↔ r ∈ refs ∧ dist r < t ∧ ∀ q ∈ refs, q ≠ r → dist r < dist q :=
  ⟨nearestMatch_eq_some, fun ⟨hr, ht, hu⟩ => nearestMatch_of_unique hn hr ht hu⟩

theorem forall_mem_range_two_pow {n : Nat} {P : Nat → Prop} :
    (∀ q ∈ List.range (2 ^ n), P q) ↔ ∀ g : BitVec n, P g.toNat :=
  ⟨fun h g => h _ (List.mem_range.mpr g.isLt), fun h q hq => h (BitVec.ofNatLT q (List.mem_range.mp hq))⟩

/-- R223, with the reference values read as 5-bit values. -/
theorem fmtDec_eq_some_iff (w : BitVec 18) (f : BitVec 5) : fmtDec (w.setWidth 15) = some f.toNat ↔
    fmtDistance w f < 4 ∧ ∀ g : BitVec 5, g ≠ f → fmtDistance w f < fmtDistance w g := by
  have hdist (g : BitVec 5) : popcount (w.setWidth 15 ^^^ fmtEnc (BitVec.ofNat 5 g.toNat)) = fmtDistance w g := by
    rw [BitVec.ofNat_toNat, BitVec.setWidth_eq, fmtDistance]
  rw [fmtDec, nearestMatch_eq_some_iff List.nodup_range, hdist]
  refine (and_iff_right (List.mem_range.mpr f.isLt)).trans (and_congr_right fun _ => ?_)
  refine (forall_mem_range_two_pow (n := 5)).trans (forall_congr' fun g => ?_)
  rw [hdist, BitVec.toNat_ne_iff_ne]

/-- R228. -/
theorem verDec_eq_some_iff (w : BitVec 18) (v : Nat) : verDec w = some v ↔ 1 ≤ v ∧ v ≤ 40 ∧
    verDistance w v < 5 ∧ ∀ u : Nat, 1 ≤ u → u ≤ 40 → u ≠ v → verDistance w v < verDistance w u := by
  have hmem (u : Nat) : u ∈ List.range' 1 40 ↔ 1 ≤ u ∧ u ≤ 40 := by
    rw [List.mem_range'_1]; omega
  rw [verDec, nearestMatch_eq_some_iff List.nodup_range']
  simp only [hmem, and_imp, and_assoc]
  rfl

theorem exec_fmDec_large {w : BitVec 18} (s : State) (h : 2 ^ 15 ≤ w.toNat) :
    exec (.fmDec w) s = .next (failed .badOperand s) := by
  rw [exec, execFmDec, if_pos h, fail_eq_next_failed]

section
variable {w : BitVec 18} (s : State) (hw : w.toNat < 2 ^ 15)
include hw

theorem exec_fmDec_match {r : Nat} (h : fmtDec (w.setWidth 15) = some r) :
    exec (.fmDec w) s = .next (done (num r) s) := by
  rw [exec, execFmDec, if_neg (Nat.not_le.mpr hw), h]
  rfl

theorem exec_fmDec_noMatch (h : fmtDec (w.setWidth 15) = none) :
    exec (.fmDec w) s = .next (failed .formatEcc s) := by
  rw [exec, execFmDec, if_neg (Nat.not_le.mpr hw), h]
  rfl

end

/-- `unfold`, and not `rw [execVrDec]`, here and below: Lean's equation for that `match` exceeds the recursion limit. -/
theorem exec_vrDec_match {w : BitVec 18} {v : Nat} (s : State) (h : verDec w = some v) :
    exec (.vrDec w) s = .next (done (num v) s) := by
  rw [exec]
  unfold execVrDec
  rw [h]
  rfl

theorem exec_vrDec_noMatch {w : BitVec 18} (s : State) (h : verDec w = none) :
    exec (.vrDec w) s = .next (failed .versionEcc s) := by
  rw [exec]
  unfold execVrDec
  rw [h]
  rfl

/-- Settles O40: `fmtDec` answers a format value exactly when it is the unique nearest one, at distance below 4. -/
theorem formatDecodeExact : Obligations.FormatDecodeExact := by
  intro w s
  refine ⟨fun hw => ⟨fun f hlt hu => ?_, fun hnone => ?_⟩, exec_fmDec_large s⟩
  · exact exec_fmDec_match s hw ((fmtDec_eq_some_iff w f).mpr ⟨hlt, hu⟩)
  · refine exec_fmDec_noMatch s hw (Option.eq_none_iff_forall_ne_some.mpr fun r hr => ?_)
    obtain ⟨f, rfl⟩ : ∃ f : BitVec 5, f.toNat = r :=
      ⟨BitVec.ofNatLT r (List.mem_range.mp (nearestMatch_eq_some hr).1), rfl⟩
    exact hnone ⟨f, (fmtDec_eq_some_iff w f).mp hr⟩

/-- Settles O43: `verDec` answers a version exactly when it is the unique nearest one, at distance below 5. -/
theorem versionDecodeExact : Obligations.VersionDecodeExact := by
  intro w s
  refine ⟨fun v h1 h40 hlt hu => ?_, fun hnone => ?_⟩
  · exact exec_vrDec_match s ((verDec_eq_some_iff w v).mpr ⟨h1, h40, hlt, hu⟩)
  · refine exec_vrDec_noMatch s (Option.eq_none_iff_forall_ne_some.mpr fun v hv => ?_)
    exact hnone ⟨v, (verDec_eq_some_iff w v).mp hv⟩

end Sys2Proof.Machine
end

section
/-! The exceptions family (60_exceptions.md): what a failing command leaves (R322) and who clears the sticky flag (10 R23). -/

namespace Sys2Proof.Machine

open Sys2Proof.Claims

/-! ## The two endings of a command, with the sticky flag after a success -/

/-- `r` is how a command ends from `s`: a failure on `s` itself (R322), or a success that leaves `STICKY` at `b`. -/
def EndsWithSticky (b : Bool) (s : State) (r : Result) : Prop :=
  (∃ k, k ≠ .ok ∧ r = fail k s) ∨ ∃ v u, r = ok v u ∧ u.status.sticky = b

section
variable {b : Bool} {s : State} {r : Result}

theorem EndsWithSticky.of_fail {k : Code} (h : r = fail k s) (hk : k ≠ .ok := by decide) : EndsWithSticky b s r :=
  .inl ⟨k, hk, h⟩

theorem EndsWithSticky.of_ok {v : Word} {u : State} (h : r = ok v u) (hu : u.status.sticky = b := by rfl) :
    EndsWithSticky b s r :=
  .inr ⟨v, u, h, hu⟩

/-- The ending of a command that only reads: one failure, or a success on the state as it was. -/
theorem EndsWithSticky.of_read {k : Code} (h : r = fail k s ∨ ∃ v, r = ok v s) (hk : k ≠ .ok := by decide) :
    EndsWithSticky s.status.sticky s r :=
  h.elim (.of_fail · hk) fun ⟨_, hv⟩ => .of_ok hv

/-- The ending of a command that writes a buffer and can fail in one way. -/
theorem EndsWithSticky.of_write {k : Code} {v : Word} {u : State} {p : Prop} (h : r = fail k s ∨ (r = ok v u ∧ p))
    (hk : k ≠ .ok := by decide) (hu : u.status.sticky = b := by rfl) : EndsWithSticky b s r :=
  h.elim (.of_fail · hk) fun ⟨hv, _⟩ => .of_ok hv hu

/-- R23, R322: what the ending says of the next state. -/
theorem EndsWithSticky.next_status {t : State} (h : EndsWithSticky b s (.next t)) :
    (t.status.code ≠ .ok → t = failed t.status.code s) ∧ (t.status.code = .ok → t.status.sticky = b) := by
  obtain ⟨k, hk, hf⟩ | ⟨v, u, ho, hu⟩ := h
  · obtain rfl := fail_next.mp hf.symm
    exact ⟨fun _ => rfl, fun h => absurd h hk⟩
  · obtain rfl := ok_next.mp ho.symm
    exact ⟨fun h => absurd rfl h, fun _ => hu⟩

end

/-! ## Every command ends so -/

theorem build_endsWithSticky (f : List Byte → Segment) (cs : Byte → Bool) (eo : Bool) (s : State) :
    EndsWithSticky s.status.sticky s (build f cs eo s) := by
  obtain ⟨h, -⟩ | ⟨h, -⟩ | ⟨h, -⟩ | ⟨h, -⟩ := build_cases f cs eo s
  · exact .of_fail h
  · exact .of_fail h
  · exact .of_fail h
  · exact .of_ok h

theorem loadDegree_endsWithSticky (c : Nat → List Byte) (d : BitVec 8) (s : State) :
    EndsWithSticky s.status.sticky s (loadDegree c d s) := by
  obtain ⟨h, -⟩ | ⟨h, -⟩ := loadDegree_cases c d s
  · exact .of_fail h
  · exact .of_ok h

/-- R23: `ST.CLR` and `RST` apart, no success touches `STICKY`. -/
theorem exec_endsWithSticky_unchanged {i : Instr} (hclr : i ≠ .stClr) (hrst : i ≠ .rst) (s : State) :
    EndsWithSticky s.status.sticky s (exec i s) := by
  cases i with
  | stClr => exact absurd rfl hclr
  | rst => exact absurd rfl hrst
  | nop | gf8Mul | gf8Exp | gf8Log | bbClr | txClr | sgClr | cwClr | asAlign | mkBit => exact .of_ok rfl
  | rgRd k => exact .of_read (execRgRd_cases k s)
  | gf4Mul a b => exact .of_read (execGf4Mul_cases a b s)
  | gf4Exp n => exact .of_read (execGf4Exp_cases n s)
  | gf4Log a => exact .of_read (execGf4Log_cases a s)
  | bbRd n => exact .of_read (execBbRd_cases n s)
  | sgRd n k => exact .of_read (execSgRd_cases n k s)
  | cfRd n => exact .of_read (execCfRd_cases n s)
  | rmRd n => exact .of_read (execRmRd_cases n s)
  | cwRd n => exact .of_read (execCwRd_cases n s)
  | fmEnc f => exact .of_read (execFmEnc_cases f s)
  | vrEnc v => exact .of_read (execVrEnc_cases v s)
  | vrDec w => exact .of_read (execVrDec_cases w s)
  | syRd n => exact .of_read (execSyRd_cases n s)
  | lcRd n => exact .of_read (execLcRd_cases n s)
  | lcEval x => exact .of_read (execLcEval_cases x s)
  | sgTot ver => exact (execSgTot_cases ver s).elim .of_fail .of_read
  | fmDec w => exact (execFmDec_cases w s).elim .of_fail .of_read
  | txPush c => exact .of_write (execTxPush_cases c s)
  | cwPush b => exact .of_write (execCwPush_cases b s)
  | cfWr n v => exact .of_write (execCfWr_cases n v s)
  | rmInit => exact .of_write (execRmInit_cases s)
  | rmStep b => exact .of_write (execRmStep_cases b s)
  | fmSyn u => exact .of_write (execFmSyn_cases u s)
  | cfGen d => exact loadDegree_endsWithSticky rsGen d s
  | cfSet d => exact loadDegree_endsWithSticky (List.replicate · 0) d s
  | sgNum | sgAln | sgByt => exact build_endsWithSticky ..
  | bbApp n v => exact (execBbApp_cases n v s).elim .of_fail .of_write
  | rsRem off len => exact (execRsRem_cases off len s).elim .of_fail .of_write
  | asTerm cap => exact (execAsTerm_cases cap s).elim .of_fail .of_write
  | asPack => exact (execAsPack_cases s).elim .of_fail .of_write
  | asCat ver => exact (execAsCat_cases ver s).elim .of_fail fun h => h.elim .of_fail .of_write
  | asPad cap => exact (execAsPad_cases cap s).elim .of_fail fun h => h.elim .of_fail .of_write
  | fmCor w =>
    obtain h | h | ⟨_, _, _, -, -, h⟩ := execFmCor_cases w s
    · exact .of_fail h
    · exact .of_fail h
    · exact .of_ok h

/-- R23, R101, R103, R322: `ST.CLR` and `RST` clear `STICKY`, every other success leaves it. -/
theorem exec_endsWithSticky (i : Instr) (s : State) :
    EndsWithSticky (if i = .stClr ∨ i = .rst then false else s.status.sticky) s (exec i s) := by
  split
  next h =>
    obtain rfl | rfl := h
    · exact .of_ok (exec_stClr s)
    · exact .of_ok (exec_rst s)
  next h =>
    obtain ⟨hclr, hrst⟩ := not_or.mp h
    exact exec_endsWithSticky_unchanged hclr hrst s

/-- Settles O53: a command ends in `fail` on its own start state, or in `ok` on a state with the stated flag. -/
theorem failingCommandChangesNothingElse : Obligations.FailingCommandChangesNothingElse := by
  intro i s t ht
  exact EndsWithSticky.next_status (ht ▸ exec_endsWithSticky i s)

end Sys2Proof.Machine
end

section
/-! Decoding the word of a command (30_encoding.md R71 to R75), the spec's sample words, and the operands that `wellFormed`
refuses (R73, R78 step 3). -/

namespace Sys2Proof

open Sys2Proof.Machine Sys2Proof.Claims

/-! ## The slices of an encoded argument are the operands (R72) -/

/-- The middle one of three fields is a slice of the word. -/
theorem extractLsb'_append_middle {m k n : Nat} (r : BitVec m) (x : BitVec k) (y : BitVec n) :
    (r ++ (x ++ y)).extractLsb' n k = x := by
  rw [BitVec.extractLsb'_append_eq_of_add_le (by omega), BitVec.extractLsb'_append_eq_left]

/-- The lowest one of three fields is a slice of the word. -/
theorem extractLsb'_append_lowest {m k n : Nat} (r : BitVec m) (x : BitVec k) (y : BitVec n) :
    (r ++ (x ++ y)).extractLsb' 0 n = y := by
  rw [BitVec.extractLsb'_append_eq_of_add_le (by omega), BitVec.extractLsb'_append_eq_right]

theorem checked_of_reserved {f : Format} {arg : BitVec 24} (h : arg &&& f.reserved = 0) (i : Instr) :
    checked f arg i = .ok i :=
  if_pos h

theorem formN_zero (i : Instr) : formN 0 i = .ok i :=
  checked_of_reserved BitVec.zero_and i

theorem formB_argB (a : BitVec 8) (k : BitVec 8 → Instr) : formB (argB a) k = .ok (k a) := by
  rw [formB, checked_of_reserved (argB_reserved a)]
  congr 2
  exact BitVec.extractLsb'_append_eq_right

theorem formI_argI (i : BitVec 16) (k : BitVec 16 → Instr) : formI (argI i) k = .ok (k i) := by
  rw [formI, checked_of_reserved (argI_reserved i)]
  congr 2
  exact BitVec.extractLsb'_append_eq_right

theorem formW_argW (w : BitVec 18) (k : BitVec 18 → Instr) : formW (argW w) k = .ok (k w) := by
  rw [formW, checked_of_reserved (argW_reserved w)]
  congr 2
  exact BitVec.extractLsb'_append_eq_right

theorem formIV_argIV (i : BitVec 16) (v : BitVec 8) (k : BitVec 16 → BitVec 8 → Instr) :
    formIV (argIV i v) k = .ok (k i v) := by
  rw [formIV, checked_of_reserved (argIV_reserved i v)]
  congr 2
  · exact BitVec.extractLsb'_append_eq_right
  · exact BitVec.extractLsb'_append_eq_left

theorem formOL_argOL (off len : BitVec 12) (k : BitVec 12 → BitVec 12 → Instr) :
    formOL (argOL off len) k = .ok (k off len) := by
  rw [formOL, checked_of_reserved (argOL_reserved off len)]
  congr 2
  · exact BitVec.extractLsb'_append_eq_right
  · exact BitVec.extractLsb'_append_eq_left

theorem formBB_argBB (a b : BitVec 8) (k : BitVec 8 → BitVec 8 → Instr) : formBB (argBB a b) k = .ok (k a b) := by
  rw [formBB, checked_of_reserved (argBB_reserved a b)]
  congr 2
  · exact extractLsb'_append_lowest 0#8 b a
  · exact extractLsb'_append_middle 0#8 b a

theorem formNV_argNV (n : BitVec 5) (v : BitVec 16) (k : BitVec 5 → BitVec 16 → Instr) :
    formNV (argNV n v) k = .ok (k n v) := by
  rw [formNV, checked_of_reserved (argNV_reserved n v)]
  congr 2
  · exact extractLsb'_append_middle 0#3 n v
  · exact extractLsb'_append_lowest 0#3 n v

theorem formIK_argIK (i : BitVec 16) (n : BitVec 2) (k : BitVec 16 → BitVec 2 → Instr) :
    formIK (argIK i n) k = .ok (k i n) := by
  rw [formIK, checked_of_reserved (argIK_reserved i n)]
  congr 2
  · exact extractLsb'_append_lowest 0#6 n i
  · exact extractLsb'_append_middle 0#6 n i

theorem formM_argM (m : BitVec 3) (x y : BitVec 8) (k : BitVec 3 → BitVec 8 → BitVec 8 → Instr) :
    formM (argM m x y) k = .ok (k m x y) := by
  rw [formM, checked_of_reserved (argM_reserved m x y)]
  congr 2
  · exact extractLsb'_append_middle 0#5 m (y ++ x)
  · refine (BitVec.extractLsb'_append_eq_of_add_le (xhi := 0#5) (by omega)).trans ?_
    exact extractLsb'_append_lowest m y x
  · refine (BitVec.extractLsb'_append_eq_of_add_le (xhi := 0#5) (by omega)).trans ?_
    exact extractLsb'_append_middle m y x

/-! ## Decoding an encoded command -/

/-- R71, R75: the opcode selects the command's own entry of the map, whose slices are the operands. -/
theorem decodeParts_opcode_argField (i : Instr) : decodeParts i.opcode i.argField = .ok i := by
  cases i with
  | nop | rst | stClr | bbClr | txClr | sgClr | sgNum | sgAln | sgByt | rmInit | cwClr | asAlign | asPack =>
    exact formN_zero _
  | rgRd a | gf8Exp a | gf8Log a | gf4Exp a | gf4Log a | txPush a | cfGen a | cfSet a | rmStep a | cwPush a | sgTot a
  | asCat a | fmEnc a | vrEnc a | lcEval a => exact formB_argB a _
  | bbRd n | cfRd n | rmRd n | cwRd n | asTerm n | asPad n | syRd n | lcRd n => exact formI_argI n _
  | fmDec w | fmSyn w | fmCor w | vrDec w => exact formW_argW w _
  | gf8Mul a b | gf4Mul a b => exact formBB_argBB a b _
  | bbApp n v => exact formNV_argNV n v _
  | sgRd n k => exact formIK_argIK n k _
  | cfWr n v => exact formIV_argIV n v _
  | rsRem off len => exact formOL_argOL off len _
  | mkBit m x y => exact formM_argM m x y _

theorem decode_encode (i : Instr) : decode (encode i) = .ok i := by
  have hop : (i.opcode ++ i.argField).extractLsb' 24 8 = i.opcode := BitVec.extractLsb'_append_eq_left
  have harg : (i.opcode ++ i.argField).extractLsb' 0 24 = i.argField := BitVec.extractLsb'_append_eq_right
  rw [decode, encode, hop, harg, decodeParts_opcode_argField]

/-- Settles O4: the word splits into the opcode and the argument field again, and every operand is a slice of the latter. -/
theorem decodeOfEncode : Obligations.DecodeOfEncode := decode_encode

/-- Settles O8: each of the fifteen words is one evaluation of the decoder. -/
theorem sampleWordsDecode : Obligations.SampleWordsDecode := by
  unfold Obligations.SampleWordsDecode
  decide

end Sys2Proof
end

section
/-! The operands that `wellFormed` refuses (30_encoding.md R73, R78 step 3). -/

namespace Sys2Proof.Machine

open Sys2Proof.Claims

/-! ## The commands of the syndrome path with an operand out of range (R241 to R245) -/

theorem exec_fmSyn_large {u : BitVec 18} (s : State) (h : 2 ^ 15 ≤ u.toNat) :
    exec (.fmSyn u) s = .next (failed .badOperand s) := by
  rw [exec, execFmSyn, if_pos h, fail_eq_next_failed]

theorem exec_fmCor_large {w : BitVec 18} (s : State) (h : 2 ^ 15 ≤ w.toNat) :
    exec (.fmCor w) s = .next (failed .badOperand s) := by
  rw [exec, execFmCor, if_pos h, fail_eq_next_failed]

theorem exec_syRd_large {i : BitVec 16} (s : State) (h : 5 < i.toNat) :
    exec (.syRd i) s = .next (failed .badOperand s) := by
  rw [exec, execSyRd, if_pos h, fail_eq_next_failed]

theorem exec_lcRd_large {i : BitVec 16} (s : State) (h : Config.maxPoly ≤ i.toNat) :
    exec (.lcRd i) s = .next (failed .badOperand s) := by
  rw [exec, execLcRd, if_pos h, fail_eq_next_failed]

theorem exec_lcEval_large {x : BitVec 8} (s : State) (h : 15 < x.toNat) :
    exec (.lcEval x) s = .next (failed .badOperand s) := by
  rw [exec, execLcEval, if_pos h, fail_eq_next_failed]

/-! ## What `wellFormed` refuses -/

theorem versionInRange_eq_false_iff (v : BitVec 8) : versionInRange v = false ↔ v.toNat < 1 ∨ 40 < v.toNat := by
  simp [versionInRange, imp_iff_or_not, or_comm]

theorem degreeInRange_eq_false {d : BitVec 8} (h : degreeInRange d = false) : d.toNat = 0 ∨ Config.degMax < d.toNat := by
  simp [degreeInRange] at h
  omega

theorem fieldInRange_eq_false {n : BitVec 5} {v : BitVec 16} (h : fieldInRange n v = false) :
    16 < n.toNat ∨ 2 ^ n.toNat ≤ v.toNat := by
  simp [fieldInRange] at h
  omega

theorem capacityInRange_eq_false {cap : BitVec 16} (h : capacityInRange cap = false) : Config.bbMax < 8 * cap.toNat := by
  simpa [capacityInRange] using h

theorem gf4Operands_eq_false {a b : BitVec 8} (h : wellFormed (.gf4Mul a b) = false) : 15 < a.toNat ∨ 15 < b.toNat := by
  simp [wellFormed] at h
  omega

/-- Settles O7: each range of `wellFormed` is the first test of the command's own meaning. -/
theorem operandRangeViolationIsBadOperand : Obligations.OperandRangeViolationIsBadOperand := by
  intro i s h
  have exceeds {n m : Nat} (hn : decide (n ≤ m) = false) : m < n := Nat.not_le.mp (of_decide_eq_false hn)
  have reaches {n m : Nat} (hn : decide (n < m) = false) : m ≤ n := Nat.not_lt.mp (of_decide_eq_false hn)
  cases i with
  | rgRd k => exact exec_rgRd_noRegister (registerValue_eq_none (exceeds h) s)
  | gf4Mul a b => exact exec_gf4Mul_large s (gf4Operands_eq_false h)
  | gf4Exp n => exact exec_gf4Exp_large s (exceeds h)
  | gf4Log a => exact exec_gf4Log_large s (exceeds h)
  | bbApp n v => exact exec_bbApp_badField s (fieldInRange_eq_false h)
  | sgRd n k =>
    have hk : k = 3 := BitVec.eq_of_toNat_eq (not_not.mp (of_decide_eq_false h))
    exact hk ▸ exec_sgRd_noField n s
  | cfGen d => exact loadDegree_outOfRange (degreeInRange_eq_false h) rsGen s
  | cfSet d => exact loadDegree_outOfRange (degreeInRange_eq_false h) (List.replicate · 0) s
  | sgTot ver => exact exec_sgTot_outOfRange ((versionInRange_eq_false_iff ver).mp h)
  | asCat ver => exact exec_asCat_outOfRange ((versionInRange_eq_false_iff ver).mp h)
  | asTerm cap => exact exec_asTerm_badCapacity (capacityInRange_eq_false h)
  | asPad cap => exact exec_asPad_badCapacity (capacityInRange_eq_false h)
  | fmEnc f => exact exec_fmEnc_large s (exceeds h)
  | fmDec w => exact exec_fmDec_large s (reaches h)
  | fmSyn u => exact exec_fmSyn_large s (reaches h)
  | fmCor w => exact exec_fmCor_large s (reaches h)
  | vrEnc v => exact exec_vrEnc_outOfRange s ((versionInRange_eq_false_iff v).mp h)
  | syRd n => exact exec_syRd_large s (exceeds h)
  | lcRd n => exact exec_lcRd_large s (reaches h)
  | lcEval x => exact exec_lcEval_large s (exceeds h)
  | nop | rst | stClr | gf8Mul | gf8Exp | gf8Log | bbClr | bbRd | txClr | txPush | sgClr | sgNum | sgAln | sgByt | cfWr
  | cfRd | rmInit | rmStep | rmRd | rsRem | cwClr | cwPush | cwRd | asAlign | asPack | mkBit | vrDec =>
    exact Bool.noConfusion h

end Sys2Proof.Machine
end

section
/-! What every command does: how it can end, which spaces it writes, and that it keeps the invariants, said once and then
carried to words, steps and runs (10_state.md R22, R41; 20_memory.md R50; 60_exceptions.md R320 to R324). -/

namespace Sys2Proof.Machine

open Sys2Proof.Safety Sys2Proof.Claims

/-! ## The invariants after a write (R41) -/

section
variable {s : State} (h : Inv s)
include h

theorem inv_okState (v : Word) : Inv (okState v s) := { h with }

theorem inv_failState (k : Code) : Inv (failState k s) := { h with }

theorem inv_advance : Inv (advance s) := { h with }

theorem inv_setStatus (x : Status) : Inv (setStatus x s) := { h with }

theorem inv_setSyn (x : Vector Nibble 6) : Inv (setSyn x s) := { h with }

theorem inv_setSigma (x : Vector Nibble Config.maxPoly) : Inv (setSigma x s) := { h with }

theorem inv_setCw {x : List Byte} (hx : x.length ≤ Config.cwMax) : Inv (setCw x s) := { h with cwBound := hx }

theorem inv_setTx {x : List Byte} (hx : x.length ≤ Config.txMax) : Inv (setTx x s) := { h with txBound := hx }

theorem inv_setBb {x : List Bool} (hx : x.length ≤ Config.bbMax) : Inv (setBb x s) := { h with bbBound := hx }

theorem inv_setCoef {x : List Byte} (hx : x.length = s.deg.toNat) : Inv (setCoef x s) := { h with coefLength := hx }

theorem inv_setRem {x : List Byte} (hx : x.length = s.deg.toNat) : Inv (setRem x s) := { h with remLength := hx }

theorem inv_loadDivisor {d : Byte} {c : List Byte} (hd : d.toNat ≤ Config.degMax) (hc : c.length = d.toNat) :
    Inv (loadDivisor d c s) :=
  { h with degBound := hd, coefLength := hc, remLength := List.length_replicate }

theorem inv_clearSegments : Inv (setSeg [] s) :=
  { h with segBound := Nat.zero_le _, payloadBound := Nat.zero_le _, segSound := fun _ hr => nomatch hr }

theorem inv_appendSegment {r : Segment} (hroom : s.seg.length ≠ Config.segMax) (hr : SegmentSound r)
    (hbits : payloadBits s.seg + r.bits.length ≤ Config.bbMax) : Inv (setSeg (s.seg ++ [r]) s) where
  __ := h
  segBound := by
    have := h.segBound
    simp only [setSeg_seg, List.length_append, List.length_singleton]
    omega
  payloadBound := by simpa [payloadBits] using hbits
  segSound := by
    simpa [or_imp, forall_and] using ⟨h.segSound, hr⟩

end

theorem inv_resetCore (s : State) : Inv (resetCore s) := inv_of_buffers_empty rfl rfl rfl rfl rfl rfl rfl

/-! ## The records the builders append are sound (R41 item 5) -/

theorem segNum_sound {t : List Byte} (h : t.length ≤ Config.txMax) : SegmentSound (segNum t) :=
  ⟨h, numericBits_length t⟩

theorem segAln_sound {t : List Byte} (h : t.length ≤ Config.txMax) : SegmentSound (segAln t) :=
  ⟨h, alnumBits_length t⟩

theorem segByt_sound {t : List Byte} (h : t.length ≤ Config.txMax) (hne : t ≠ []) : SegmentSound (segByt t) :=
  ⟨h, List.length_pos_iff.mpr hne, byteBits_length t⟩

/-! ## The lengths of what the assembler commands write -/

theorem asCat_length (L : List Segment) (ver : Nat) : (asCat L ver).length = segTotal L ver := by
  simp [asCat, segTotal, segmentStream, List.length_flatMap]

/-- R197: the next byte boundary is still inside a buffer whose capacity is a multiple of 8. -/
theorem add_alignLength_le {n : Nat} (h : n ≤ Config.bbMax) : n + alignLength n ≤ Config.bbMax := by
  have := alignLength_lt n
  have := alignLength_mod n
  have := Config.bbMax_aligned
  omega

/-! ## The two endings of a command, with the codes of R321 and the frame of R50 -/

/-- The commands that R321's table names under "raised by", by code; the decoder's own code has none. -/
def raisers : Code → List String
  | .ok | .illegalCmd => []
  | .badOperand =>
    ["RG.RD", "GF4.MUL", "GF4.EXP", "GF4.LOG", "BB.APP", "BB.RD", "SG.RD", "CF.GEN", "CF.SET", "CF.WR", "CF.RD",
      "RM.RD", "RS.REM", "CW.RD", "SG.TOT", "AS.CAT", "AS.TERM", "AS.PAD", "FM.ENC", "FM.DEC", "FM.SYN", "FM.COR",
      "VR.ENC", "SY.RD", "LC.RD", "LC.EVAL"]
  | .badState => ["RM.INIT", "RM.STEP", "RS.REM", "AS.PAD", "AS.PACK"]
  | .overflow => ["BB.APP", "TX.PUSH", "CW.PUSH", "SG.NUM", "SG.ALN", "SG.BYT", "AS.CAT", "AS.PACK"]
  | .segCharset => ["SG.NUM", "SG.ALN"]
  | .segEmpty => ["SG.BYT"]
  | .capacity => ["SG.TOT", "AS.CAT", "AS.TERM", "AS.PAD"]
  | .formatEcc => ["FM.DEC", "FM.COR"]
  | .versionEcc => ["VR.DEC"]

/-- R24, R50: from `s` to `u` the command named `m` changes at most the spaces of which it is listed as a writer. -/
structure FrameKept (m : String) (s u : State) : Prop where
  deg : m ∉ ["CF.GEN", "CF.SET", "RST"] → u.deg = s.deg
  coef : m ∉ ["CF.GEN", "CF.SET", "CF.WR", "RST"] → u.coef = s.coef
  rem : m ∉ ["RM.INIT", "RM.STEP", "RS.REM", "CF.GEN", "CF.SET", "RST"] → u.rem = s.rem
  cw : m ∉ ["CW.PUSH", "CW.CLR", "AS.PACK", "RST"] → u.cw = s.cw
  tx : m ∉ ["TX.PUSH", "TX.CLR", "RST"] → u.tx = s.tx
  bb : m ∉ ["BB.APP", "BB.CLR", "AS.CAT", "AS.TERM", "AS.ALIGN", "AS.PAD", "RST"] → u.bb = s.bb
  seg : m ∉ ["SG.NUM", "SG.ALN", "SG.BYT", "SG.CLR", "RST"] → u.seg = s.seg
  syn : m ∉ ["FM.SYN", "FM.COR", "RST"] → u.syn = s.syn
  sigma : m ∉ ["FM.COR", "RST"] → u.sigma = s.sigma
  cmds : u.cmds = s.cmds
  idx : u.idx = s.idx

theorem FrameKept.refl (m : String) (s : State) : FrameKept m s s := by
  constructor <;> intros <;> rfl

/-- How command `i` ends from `s`: with a failure on `s` itself of a code it is listed for, or with a success on a state that
keeps its frame and, if `s` did, meets the invariants. -/
def Ends (i : Instr) (s : State) (r : Result) : Prop :=
  (∃ k, i.mnemonic ∈ raisers k ∧ r = fail k s) ∨ ∃ v u, r = ok v u ∧ FrameKept i.mnemonic s u ∧ (Inv s → Inv u)

section
variable {i : Instr} {s : State} {r : Result}

theorem Ends.of_fail {k : Code} (h : r = fail k s)
    (hk : i.mnemonic ∈ raisers k := by simp [raisers, Instr.mnemonic]) : Ends i s r :=
  .inl ⟨k, hk, h⟩

theorem Ends.of_ok {v : Word} {u : State} (h : r = ok v u) (hf : FrameKept i.mnemonic s u) (hinv : Inv s → Inv u) :
    Ends i s r :=
  .inr ⟨v, u, h, hf, hinv⟩

/-- A success that writes no space. -/
theorem Ends.of_ok_same {v : Word} (h : r = ok v s) : Ends i s r :=
  .of_ok h (.refl i.mnemonic s) id

/-- The ending of a command that only reads. -/
theorem Ends.of_read {k : Code} (h : r = fail k s ∨ ∃ v, r = ok v s)
    (hk : i.mnemonic ∈ raisers k := by simp [raisers, Instr.mnemonic]) : Ends i s r :=
  h.elim (.of_fail · hk) fun ⟨_, hv⟩ => .of_ok_same hv

/-! ### A write keeps the frame of the commands listed as writers of its space (R50) -/

variable {m : String}

theorem frameKept_setCw {x : List Byte} (hm : m ∈ ["CW.PUSH", "CW.CLR", "AS.PACK", "RST"]) : FrameKept m s (setCw x s) :=
  { FrameKept.refl m s with cw := fun h => absurd hm h }

theorem frameKept_setTx {x : List Byte} (hm : m ∈ ["TX.PUSH", "TX.CLR", "RST"]) : FrameKept m s (setTx x s) :=
  { FrameKept.refl m s with tx := fun h => absurd hm h }

theorem frameKept_setBb {x : List Bool}
    (hm : m ∈ ["BB.APP", "BB.CLR", "AS.CAT", "AS.TERM", "AS.ALIGN", "AS.PAD", "RST"]) : FrameKept m s (setBb x s) :=
  { FrameKept.refl m s with bb := fun h => absurd hm h }

theorem frameKept_setSeg {x : List Segment} (hm : m ∈ ["SG.NUM", "SG.ALN", "SG.BYT", "SG.CLR", "RST"]) :
    FrameKept m s (setSeg x s) :=
  { FrameKept.refl m s with seg := fun h => absurd hm h }

theorem frameKept_setCoef {x : List Byte} (hm : m ∈ ["CF.GEN", "CF.SET", "CF.WR", "RST"]) :
    FrameKept m s (setCoef x s) :=
  { FrameKept.refl m s with coef := fun h => absurd hm h }

theorem frameKept_setRem {x : List Byte} (hm : m ∈ ["RM.INIT", "RM.STEP", "RS.REM", "CF.GEN", "CF.SET", "RST"]) :
    FrameKept m s (setRem x s) :=
  { FrameKept.refl m s with rem := fun h => absurd hm h }

theorem frameKept_setSyn {x : Vector Nibble 6} (hm : m ∈ ["FM.SYN", "FM.COR", "RST"]) : FrameKept m s (setSyn x s) :=
  { FrameKept.refl m s with syn := fun h => absurd hm h }

theorem frameKept_setSigma_setSyn {x : Vector Nibble 6} {y : Vector Nibble Config.maxPoly} (hm : m ∈ ["FM.COR", "RST"]) :
    FrameKept m s (setSigma y (setSyn x s)) :=
  { FrameKept.refl m s with
    syn := fun h => absurd (List.mem_cons_of_mem _ hm) h
    sigma := fun h => absurd hm h }

theorem frameKept_loadDivisor {d : Byte} {c : List Byte} (hm : m ∈ ["CF.GEN", "CF.SET"]) :
    FrameKept m s (loadDivisor d c s) :=
  { FrameKept.refl m s with
    deg := fun h => absurd (List.mem_append_left ["RST"] hm) h
    coef := fun h => absurd (List.mem_append_left ["CF.WR", "RST"] hm) h
    rem := fun h =>
      absurd (List.mem_append_right ["RM.INIT", "RM.STEP", "RS.REM"] (List.mem_append_left ["RST"] hm)) h }

theorem frameKept_resetCore : FrameKept "RST" s (resetCore s) := by
  constructor <;> simp

end

/-! ### The shared operations end so -/

section
variable {i : Instr} {s : State} {r : Result}

/-- The ending of a builder, which R41 item 5 asks to append sound records. -/
theorem build_ends {f : List Byte → Segment} {cs : Byte → Bool} {eo : Bool}
    (hcs : (∀ c, cs c = true) ∨ i.mnemonic ∈ raisers .segCharset) (hempty : eo = true ∨ i.mnemonic ∈ raisers .segEmpty)
    (hsound : s.tx.length ≤ Config.txMax → (eo = true ∨ s.tx ≠ []) → SegmentSound (f s.tx))
    (hover : i.mnemonic ∈ raisers .overflow := by simp [raisers, Instr.mnemonic])
    (hframe : i.mnemonic ∈ ["SG.NUM", "SG.ALN", "SG.BYT", "SG.CLR", "RST"] := by simp [Instr.mnemonic]) :
    Ends i s (build f cs eo s) := by
  obtain ⟨h, -⟩ | ⟨h, heo, -⟩ | ⟨h, hno⟩ | ⟨h, hroom, hne, -, hbits⟩ := build_cases f cs eo s
  · exact .of_fail h hover
  · exact .of_fail h (hempty.resolve_left (by simp [heo]))
  · exact .of_fail h (hcs.resolve_left fun hall => by simp [hall] at hno)
  · exact .of_ok h (frameKept_setSeg hframe) fun hinv => inv_appendSegment hinv hroom (hsound hinv.txBound hne) hbits

theorem loadDegree_ends {c : Nat → List Byte} (hc : ∀ n, 1 ≤ n → (c n).length = n) (d : BitVec 8)
    (hbad : i.mnemonic ∈ raisers .badOperand := by simp [raisers, Instr.mnemonic])
    (hframe : i.mnemonic ∈ ["CF.GEN", "CF.SET"] := by simp [Instr.mnemonic]) : Ends i s (loadDegree c d s) := by
  obtain ⟨h, -⟩ | ⟨h, h1, h2⟩ := loadDegree_cases c d s
  · exact .of_fail h hbad
  · exact .of_ok h (frameKept_loadDivisor hframe) fun hinv => inv_loadDivisor hinv h2 (hc _ h1)

theorem endWithBb_ends {x : List Bool} (h : r = endWithBb x s)
    (hx : s.bb.length ≤ Config.bbMax → x.length ≤ Config.bbMax)
    (hm : i.mnemonic ∈ ["BB.APP", "BB.CLR", "AS.CAT", "AS.TERM", "AS.ALIGN", "AS.PAD", "RST"] := by
      simp [Instr.mnemonic]) : Ends i s r :=
  .of_ok h (frameKept_setBb hm) fun hinv => inv_setBb hinv (hx hinv.bbBound)

theorem setCw_ends {v : Word} {x : List Byte} (h : r = ok v (setCw x s))
    (hx : s.cw.length ≤ Config.cwMax → x.length ≤ Config.cwMax)
    (hm : i.mnemonic ∈ ["CW.PUSH", "CW.CLR", "AS.PACK", "RST"] := by simp [Instr.mnemonic]) : Ends i s r :=
  .of_ok h (frameKept_setCw hm) fun hinv => inv_setCw hinv (hx hinv.cwBound)

theorem setTx_ends {v : Word} {x : List Byte} (h : r = ok v (setTx x s))
    (hx : s.tx.length ≤ Config.txMax → x.length ≤ Config.txMax)
    (hm : i.mnemonic ∈ ["TX.PUSH", "TX.CLR", "RST"] := by simp [Instr.mnemonic]) : Ends i s r :=
  .of_ok h (frameKept_setTx hm) fun hinv => inv_setTx hinv (hx hinv.txBound)

theorem setRem_ends {v : Word} {x : List Byte} (h : r = ok v (setRem x s))
    (hx : Inv s → x.length = s.deg.toNat)
    (hm : i.mnemonic ∈ ["RM.INIT", "RM.STEP", "RS.REM", "CF.GEN", "CF.SET", "RST"] := by simp [Instr.mnemonic]) :
    Ends i s r :=
  .of_ok h (frameKept_setRem hm) fun hinv => inv_setRem hinv (hx hinv)

end

/-! ## Every command ends so -/

/-- R50, R321, R41: the endings of all 47 commands. -/
theorem exec_ends (i : Instr) (s : State) : Ends i s (exec i s) := by
  cases i with
  | nop | gf8Mul | gf8Exp | gf8Log | mkBit => exact .of_ok_same rfl
  | rst => exact .of_ok rfl frameKept_resetCore fun _ => inv_resetCore s
  | stClr => exact .of_ok rfl { FrameKept.refl "ST.CLR" s with } fun hinv => inv_setStatus hinv _
  | rgRd k => exact .of_read (execRgRd_cases k s)
  | gf4Mul a b => exact .of_read (execGf4Mul_cases a b s)
  | gf4Exp n => exact .of_read (execGf4Exp_cases n s)
  | gf4Log a => exact .of_read (execGf4Log_cases a s)
  | bbRd n => exact .of_read (execBbRd_cases n s)
  | sgRd n k => exact .of_read (execSgRd_cases n k s)
  | cfRd n => exact .of_read (execCfRd_cases n s)
  | rmRd n => exact .of_read (execRmRd_cases n s)
  | cwRd n => exact .of_read (execCwRd_cases n s)
  | fmEnc f => exact .of_read (execFmEnc_cases f s)
  | vrEnc v => exact .of_read (execVrEnc_cases v s)
  | vrDec w => exact .of_read (execVrDec_cases w s)
  | syRd n => exact .of_read (execSyRd_cases n s)
  | lcRd n => exact .of_read (execLcRd_cases n s)
  | lcEval x => exact .of_read (execLcEval_cases x s)
  | sgTot ver => exact (execSgTot_cases ver s).elim .of_fail .of_read
  | fmDec w => exact (execFmDec_cases w s).elim .of_fail .of_read
  | bbClr => exact endWithBb_ends (x := []) rfl fun _ => Nat.zero_le _
  | txClr => exact setTx_ends rfl fun _ => Nat.zero_le _
  | cwClr => exact setCw_ends rfl fun _ => Nat.zero_le _
  | sgClr => exact .of_ok rfl (frameKept_setSeg (by simp [Instr.mnemonic])) inv_clearSegments
  | sgNum => exact build_ends (.inr (by simp [raisers, Instr.mnemonic])) (.inl rfl) fun h _ => segNum_sound h
  | sgAln => exact build_ends (.inr (by simp [raisers, Instr.mnemonic])) (.inl rfl) fun h _ => segAln_sound h
  | sgByt =>
    exact build_ends (.inl fun _ => rfl) (.inr (by simp [raisers, Instr.mnemonic])) fun h hne =>
      segByt_sound h (hne.resolve_left nofun)
  | cfGen d => exact loadDegree_ends rsGen_length d
  | cfSet d => exact loadDegree_ends (c := (List.replicate · 0)) (fun _ _ => List.length_replicate) d
  | txPush c =>
    obtain h | ⟨h, hroom⟩ := execTxPush_cases c s
    · exact .of_fail h
    · refine setTx_ends h fun hle => ?_
      rw [List.length_append, List.length_singleton]; omega
  | cwPush b =>
    obtain h | ⟨h, hroom⟩ := execCwPush_cases b s
    · exact .of_fail h
    · refine setCw_ends h fun hle => ?_
      rw [List.length_append, List.length_singleton]; omega
  | asPack =>
    obtain h | h | ⟨h, -, hroom⟩ := execAsPack_cases s
    · exact .of_fail h
    · exact .of_fail h
    · exact setCw_ends h fun _ => (packAll_length _).trans_le hroom
  | cfWr n v =>
    obtain h | ⟨h, -⟩ := execCfWr_cases n v s
    · exact .of_fail h
    · exact .of_ok h (frameKept_setCoef (by simp [Instr.mnemonic])) fun hinv =>
        inv_setCoef hinv (List.length_set.trans hinv.coefLength)
  | rmInit =>
    obtain h | ⟨h, -⟩ := execRmInit_cases s
    · exact .of_fail h
    · exact setRem_ends h fun _ => List.length_replicate
  | rmStep b =>
    obtain h | ⟨h, hdeg⟩ := execRmStep_cases b s
    · exact .of_fail h
    · refine setRem_ends h fun hinv => ?_
      have hlen : s.rem.length = s.coef.length := hinv.remLength.trans hinv.coefLength.symm
      exact (rsStep_length _ _ b hlen (coef_ne_nil hinv hdeg)).trans hinv.coefLength
  | rsRem off len =>
    obtain h | h | ⟨h, hdeg, -⟩ := execRsRem_cases off len s
    · exact .of_fail h
    · exact .of_fail h
    · exact setRem_ends h fun hinv => (rsRem_length _ _ (coef_ne_nil hinv hdeg)).trans hinv.coefLength
  | bbApp n v =>
    obtain h | h | ⟨h, -, -, hroom⟩ := execBbApp_cases n v s
    · exact .of_fail h
    · exact .of_fail h
    · exact endWithBb_ends h fun _ => (bbAppend_length ..).trans_le hroom
  | asCat ver =>
    obtain h | h | h | ⟨h, hroom⟩ := execAsCat_cases ver s
    · exact .of_fail h
    · exact .of_fail h
    · exact .of_fail h
    · exact endWithBb_ends h fun _ => (asCat_length ..).trans_le hroom
  | asTerm cap =>
    obtain h | h | ⟨h, hcap, hlen⟩ := execAsTerm_cases cap s
    · exact .of_fail h
    · exact .of_fail h
    · refine endWithBb_ends h fun _ => ?_
      rw [List.length_append, List.length_replicate, terminatorLength]; omega
  | asAlign =>
    refine endWithBb_ends rfl fun hle => ?_
    rw [List.length_append, List.length_replicate]
    exact add_alignLength_le hle
  | asPad cap =>
    obtain h | h | h | ⟨h, hcap, -, hlen⟩ := execAsPad_cases cap s
    · exact .of_fail h
    · exact .of_fail h
    · exact .of_fail h
    · refine endWithBb_ends h fun _ => ?_
      rw [List.length_append, padBits_length]; omega
  | fmSyn u =>
    obtain h | ⟨h, -⟩ := execFmSyn_cases u s
    · exact .of_fail h
    · exact .of_ok h (frameKept_setSyn (by simp [Instr.mnemonic])) fun hinv => inv_setSyn hinv _
  | fmCor w =>
    obtain h | h | ⟨_, _, _, -, -, h⟩ := execFmCor_cases w s
    · exact .of_fail h
    · exact .of_fail h
    · exact .of_ok h (frameKept_setSigma_setSyn (by simp [Instr.mnemonic])) fun hinv =>
        inv_setSigma (inv_setSyn hinv _) _

end Sys2Proof.Machine
end

section
/-! The whole-machine rules that follow from how every command ends: the frame (20_memory.md R50), the codes (60_exceptions.md
R321, R324), and the step on every presented word (60_exceptions.md R320, 10_state.md R22, R41). -/

namespace Sys2Proof.Machine

open Sys2Proof.Safety Sys2Proof.Claims

/-! ## Commands -/

section
variable {i : Instr} {s t : State}

theorem Ends.frameKept (h : Ends i s (.next t)) : FrameKept i.mnemonic s t := by
  obtain ⟨k, -, hf⟩ | ⟨v, u, ho, hframe, -⟩ := h
  · obtain rfl := fail_next.mp hf.symm
    exact { FrameKept.refl i.mnemonic s with }
  · obtain rfl := ok_next.mp ho.symm
    exact { hframe with }

theorem Ends.code (h : Ends i s (.next t)) : t.status.code = .ok ∨ i.mnemonic ∈ raisers t.status.code := by
  obtain ⟨k, hk, hf⟩ | ⟨v, u, ho, -, -⟩ := h
  · obtain rfl := fail_next.mp hf.symm
    exact .inr hk
  · obtain rfl := ok_next.mp ho.symm
    exact .inl rfl

end

/-- Settles O52: the frame of the command's ending, space by space. -/
theorem eachCommandWritesOnlyItsSpaces : Obligations.EachCommandWritesOnlyItsSpaces := by
  intro i s t ht
  obtain ⟨hdeg, hcoef, hrem, hcw, htx, hbb, hseg, hsyn, hsigma, hcmds, hidx⟩ := (ht ▸ exec_ends i s).frameKept
  exact ⟨hdeg, hcoef, hrem, hcw, htx, hbb, hseg, hsyn, hsigma, hcmds, hidx⟩

/-- R324: the commands that cannot fail once decoded are listed for no code. -/
theorem not_mem_raisers_of_cannotFail {m : String}
    (hm : m ∈ ["NOP", "RST", "ST.CLR", "GF8.MUL", "GF8.EXP", "GF8.LOG", "BB.CLR", "TX.CLR", "SG.CLR", "CW.CLR", "AS.ALIGN",
      "MK.BIT"]) (k : Code) : m ∉ raisers k := by
  revert m
  cases k <;> decide

/-- Settles O54: a code other than `OK` is one that the command's ending is listed for, and `raisers` is R321's column. -/
theorem commandsRaiseOnlyTheirCodes : Obligations.CommandsRaiseOnlyTheirCodes := by
  intro i s t ht
  have hcode : t.status.code = .ok ∨ i.mnemonic ∈ raisers t.status.code := (ht ▸ exec_ends i s).code
  have raised (k : Code) (hne : k ≠ .ok) (hk : t.status.code = k) : i.mnemonic ∈ raisers k := by
    subst hk
    exact hcode.resolve_left hne
  refine ⟨fun h => List.not_mem_nil (raised .illegalCmd nofun h), raised .badOperand nofun, raised .badState nofun,
    raised .overflow nofun, raised .segCharset nofun, fun h => ?_, raised .capacity nofun, raised .formatEcc nofun,
    fun h => ?_, fun hm => hcode.resolve_right (not_mem_raisers_of_cannotFail hm _)⟩
  · exact List.mem_singleton.mp (raised .segEmpty nofun h)
  · exact List.mem_singleton.mp (raised .versionEcc nofun h)

/-! ## Words and steps -/

theorem execWord_of_decode {c : Word} {i : Instr} (h : decode c = .ok i) (s : State) : execWord c s = exec i s := by
  rw [execWord, h]

theorem execWord_of_decode_error {c : Word} {e : DecodeError} (h : decode c = .error e) (s : State) :
    execWord c s = fail .illegalCmd s := by
  rw [execWord, h]

theorem execWord_encode (i : Instr) (s : State) : execWord (encode i) s = exec i s :=
  execWord_of_decode (decode_encode i) s

/-- R320, R322: a word, legal or not, ends in a failure on the state itself, or in a success that leaves the host's stream
alone; both keep the invariants. -/
theorem execWord_cases (c : Word) (s : State) :
    (∃ k, k ≠ .ok ∧ execWord c s = fail k s) ∨
    ∃ v u, execWord c s = ok v u ∧ u.cmds = s.cmds ∧ u.idx = s.idx ∧ (Inv s → Inv u) := by
  cases hd : decode c with
  | error e => exact .inl ⟨_, by decide, execWord_of_decode_error hd s⟩
  | ok i =>
    rw [execWord_of_decode hd]
    obtain ⟨k, hk, h⟩ | ⟨v, u, h, hframe, hinv⟩ := exec_ends i s
    · exact .inl ⟨k, fun hok => by simp [hok, raisers] at hk, h⟩
    · exact .inr ⟨v, u, h, hframe.cmds, hframe.idx, hinv⟩

theorem step_of_getElem? {s : State} {c : Word} (h : s.cmds[s.idx]? = some c) : step s = afterCommand (execWord c s) := by
  rw [step, nextWord, h]

theorem step_of_noWord {s : State} (h : s.cmds[s.idx]? = none) : step s = .fault .noCommand := by
  rw [step, nextWord, h]

theorem afterCommand_fail (k : Code) (s : State) : afterCommand (fail k s) = .next (advance (failState k s)) := rfl

theorem afterCommand_ok (v : Word) (s : State) : afterCommand (ok v s) = .next (advance (okState v s)) := rfl

/-- Settles O3: `step` is the fetch, then the decoded command or the failure, then the index. -/
theorem stepRunsTheDecodedCommand : Obligations.StepRunsTheDecodedCommand := by
  intro s
  refine ⟨fun c i hc hd => ?_, fun c e hc he => step_of_decode_error hc he, step_of_noWord⟩
  rw [step_of_getElem? hc, execWord_of_decode hd]
  cases exec i s <;> rfl

/-- Settles O57: the word that the step executes keeps the invariants, and the index is not among them. -/
theorem stepKeepsInvariants : Obligations.StepKeepsInvariants := by
  intro s t hinv ht
  cases hc : s.cmds[s.idx]? with
  | none => simp [step_of_noWord hc] at ht
  | some c =>
    rw [step_of_getElem? hc] at ht
    obtain ⟨k, -, h⟩ | ⟨v, u, h, -, -, hu⟩ := execWord_cases c s
    · rw [h, afterCommand_fail] at ht
      cases ht
      exact inv_advance (inv_failState hinv k)
    · rw [h, afterCommand_ok] at ht
      cases ht
      exact inv_advance (inv_okState (hu hinv) v)

theorem codeNumber_toNat_le (k : Code) : (codeNumber k).toNat ≤ 9 := by
  cases k <;> decide

/-- Settles O56: a word ends in a failure, whose result is 0, or in a success, whose code is 0. -/
theorem everyPresentedWordEndsInANextState : Obligations.EveryPresentedWordEndsInANextState := by
  intro s c hc
  rw [step_of_getElem? hc]
  obtain ⟨k, -, h⟩ | ⟨v, u, h, hcmds, hidx, -⟩ := execWord_cases c s
  · rw [h, afterCommand_fail]
    exact ⟨_, rfl, rfl, rfl, codeNumber_toNat_le k, fun _ => rfl⟩
  · rw [h, afterCommand_ok]
    exact ⟨_, rfl, congrArg (· + 1) hidx, hcmds, codeNumber_toNat_le .ok, fun hne => absurd rfl hne⟩

end Sys2Proof.Machine
end

section
/-! What no command reads: `STATUS`, but for `RG.RD 1` (10_state.md R23), and the host's stream (R22). Then what a run of a
list of words is (70_reset_and_hazards.md R358, R363). -/

namespace Sys2Proof.Machine

open Sys2Proof.Safety Sys2Proof.Claims

/-! ## Two states that differ only in what no command reads -/

/-- `s` with another `STATUS` and another host stream. -/
def withHost (st : Status) (C : List Word) (n : Nat) (s : State) : State := { s with status := st, cmds := C, idx := n }

/-- From `s` and from `withHost st C n s` a command answers `r` and `r'`: the same failure, or the same success on states that
again differ only so; and an unchanged `STATUS` is answered by an unchanged one. -/
def SameButHost (st : Status) (C : List Word) (n : Nat) (s : State) (r r' : Result) : Prop :=
  (∃ k, r = fail k s ∧ r' = fail k (withHost st C n s)) ∨
  ∃ v u st', r = ok v u ∧ r' = ok v (withHost st' C n u) ∧ (st = s.status → st' = u.status)

section
variable {st : Status} {C : List Word} {n : Nat} {s : State}

theorem SameButHost.fail {k : Code} : SameButHost st C n s (fail k s) (fail k (withHost st C n s)) :=
  .inl ⟨k, rfl, rfl⟩

/-- A success that leaves `STATUS` to its ending. -/
theorem SameButHost.ok {v : Word} {u : State} (hu : u.status = s.status := by rfl) :
    SameButHost st C n s (ok v u) (ok v (withHost st C n u)) :=
  .inr ⟨v, u, st, rfl, rfl, fun h => h.trans hu.symm⟩

theorem SameButHost.ite {p : Prop} [Decidable p] {a b a' b' : Result} (ha : SameButHost st C n s a a')
    (hb : SameButHost st C n s b b') : SameButHost st C n s (if p then a else b) (if p then a' else b') := by
  split
  · exact ha
  · exact hb

theorem SameButHost.readAt {α : Type} {buf : List α} {i : Nat} {f : α → Word} :
    SameButHost st C n s (readAt buf i f s) (readAt buf i f (withHost st C n s)) := by
  obtain ⟨h, he⟩ | ⟨h, -⟩ := readAt_cases buf i f s
  · rw [he, readAt_of_getElem? (List.getElem?_eq_getElem h)]
    exact .ok
  · rw [readAt_of_length_le h, readAt_of_length_le h]
    exact .fail

theorem SameButHost.build {f : List Byte → Segment} {cs : Byte → Bool} {eo : Bool} :
    SameButHost st C n s (build f cs eo s) (build f cs eo (withHost st C n s)) :=
  .ite .fail (.ite .fail (.ite .fail (.ite .fail .ok)))

theorem SameButHost.loadDegree {c : Nat → List Byte} {d : BitVec 8} :
    SameButHost st C n s (loadDegree c d s) (loadDegree c d (withHost st C n s)) :=
  .ite .fail .ok

/-- R27: every register but `STATUS` reads the same. -/
theorem registerValue_withHost {k : Nat} (hk : k = 1 → st = s.status) :
    registerValue k (withHost st C n s) = registerValue k s := by
  match k with
  | 1 => rw [registerValue, hk rfl]; rfl
  | 0 | 2 | 3 | 4 | 5 | 6 => rfl
  | k + 7 => rw [registerValue_eq_none (by omega), registerValue_eq_none (by omega)]

theorem execFmDec_withHost (w : BitVec 18) :
    SameButHost st C n s (execFmDec w s) (execFmDec w (withHost st C n s)) := by
  unfold execFmDec
  refine .ite .fail ?_
  cases fmtDec (w.setWidth 15) with
  | some f => exact .ok
  | none => exact .fail

theorem execFmCor_withHost (w : BitVec 18) :
    SameButHost st C n s (execFmCor w s) (execFmCor w (withHost st C n s)) := by
  unfold execFmCor
  refine .ite .fail ?_
  cases fmtCor (w.setWidth 15) with
  | some r => exact .ok
  | none => exact .fail

theorem execVrDec_withHost (w : BitVec 18) :
    SameButHost st C n s (execVrDec w s) (execVrDec w (withHost st C n s)) := by
  unfold execVrDec
  cases verDec w with
  | some v => exact .ok
  | none => exact .fail

/-- R22, R23: the host's stream is read by no command, and `STATUS` by `RG.RD 1` alone. -/
theorem exec_withHost (i : Instr) (hi : i = .rgRd 1 → st = s.status) :
    SameButHost st C n s (exec i s) (exec i (withHost st C n s)) := by
  cases i with
  | nop | gf8Mul | gf8Exp | gf8Log | bbClr | txClr | sgClr | cwClr | mkBit | asAlign => exact .ok
  | rst => exact .inr ⟨0, resetCore s, State.reset.status, rfl, rfl, fun _ => rfl⟩
  | stClr => exact .inr ⟨0, setStatus (statusCleared s.status) s, statusCleared st, rfl, rfl, fun h => h ▸ rfl⟩
  | rgRd k =>
    have hreg := registerValue_withHost (C := C) (n := n) fun hk => hi (congrArg _ (BitVec.eq_of_toNat_eq hk))
    simp only [exec, execRgRd, hreg]
    cases registerValue k.toNat s with
    | some v => exact .ok
    | none => exact .fail
  | bbRd | cwRd => exact .readAt
  | sgRd | cfRd | rmRd | syRd | lcRd => exact .ite .fail .readAt
  | gf4Mul | gf4Exp | gf4Log | txPush | cwPush | cfWr | rmInit | rmStep | fmEnc | vrEnc | fmSyn | lcEval =>
    exact .ite .fail .ok
  | rsRem | sgTot | asTerm | asPack => exact .ite .fail (.ite .fail .ok)
  | bbApp | asCat | asPad => exact .ite .fail (.ite .fail (.ite .fail .ok))
  | sgNum | sgAln | sgByt => exact .build
  | cfGen => exact .loadDegree
  | cfSet d => exact .loadDegree (c := (List.replicate · 0))
  | fmDec w => exact execFmDec_withHost w
  | fmCor w => exact execFmCor_withHost w
  | vrDec w => exact execVrDec_withHost w

end

/-- Settles O55: the other `STATUS` is one more thing that no command reads, and the host's stream is kept. -/
theorem statusIsNoInput : Obligations.StatusIsNoInput := by
  intro i s t st hi ht
  have hframe := (ht ▸ exec_ends i s : Ends i s (.next t)).frameKept
  obtain ⟨k, h, h'⟩ | ⟨v, u, st', h, h', -⟩ := exec_withHost (C := s.cmds) (n := s.idx) i fun h => absurd h hi
  · obtain rfl := fail_next.mp (h.symm.trans ht)
    exact ⟨true, h'⟩
  · obtain rfl := ok_next.mp (h.symm.trans ht)
    refine ⟨st'.sticky, h'.trans ?_⟩
    rw [← hframe.cmds, ← hframe.idx]
    rfl

/-! ## Words and runs -/

theorem execWord_withHost (c : Word) (C : List Word) (n : Nat) (s : State) :
    SameButHost s.status C n s (execWord c s) (execWord c (withHost s.status C n s)) := by
  cases hd : decode c with
  | error e =>
    rw [execWord_of_decode_error hd, execWord_of_decode_error hd]
    exact .fail
  | ok i =>
    rw [execWord_of_decode hd, execWord_of_decode hd]
    exact exec_withHost i fun _ => rfl

theorem runWords_cons {c : Word} {s t : State} (h : execWord c s = .next t) (ws : List Word) :
    runWords (c :: ws) s = ((runWords ws t).1, t.response :: (runWords ws t).2) := by
  rw [runWords, h]

/-- R22: a step whose host presents `c` is `c` executed on the core, with the index moved on. -/
theorem step_withHost {c : Word} {C : List Word} {n : Nat} (hc : C[n]? = some c) (s : State) :
    ∃ t, execWord c s = .next t ∧ step (withHost s.status C n s) = .next (withHost t.status C (n + 1) t) := by
  rw [step_of_getElem? hc]
  obtain ⟨k, h, h'⟩ | ⟨v, u, st', h, h', hst⟩ := execWord_withHost c C n s
  · exact ⟨_, h, by rw [h', afterCommand_fail]; rfl⟩
  · exact ⟨_, h, by rw [h', hst rfl, afterCommand_ok]; rfl⟩

theorem run_succ {M : Host.Core} {s t : M.State} (h : M.step s = .next t) (n : Nat) : M.run (n + 1) s = M.run n t := by
  rw [Host.Core.run, h]

/-- R363: the steps over the rest of a stream are the run of the rest. -/
theorem run_withHost {C ws : List Word} {n : Nat} (hws : C.drop n = ws) (s : State) :
    Host.Core.run Sys2Proof.core ws.length (withHost s.status C n s) =
      .next (withHost (runWords ws s).1.status C (n + ws.length) (runWords ws s).1) := by
  induction ws generalizing n s with
  | nil => rfl
  | cons c ws ih =>
    have hc : C[n]? = some c := by rw [← List.head?_drop, hws, List.head?_cons]
    have hrest : C.drop (n + 1) = ws := by rw [← List.tail_drop, hws, List.tail_cons]
    obtain ⟨t, ht, hstep⟩ := step_withHost hc s
    rw [List.length_cons, runWords_cons ht, Nat.add_comm ws.length, ← Nat.add_assoc, Nat.add_comm 1]
    exact (run_succ (M := Sys2Proof.core) hstep _).trans (ih hrest t)

/-- Settles O60: the loaded list is a stream whose rest at index 0 is the list itself. -/
theorem runIsStepByStep : Obligations.RunIsStepByStep := by
  intro ws s
  refine ⟨?_, step_of_noWord (List.getElem?_eq_none le_rfl)⟩
  have hrun := run_withHost (C := ws) (n := 0) rfl s
  rwa [Nat.zero_add] at hrun

/-! ## The sticky flag of a run (R358) -/

theorem execWord_endsWithSticky {c : Word} (hclr : c ≠ encode .stClr) (hrst : c ≠ encode .rst) (s : State) :
    EndsWithSticky s.status.sticky s (execWord c s) := by
  cases hd : decode c with
  | error e => exact .of_fail (execWord_of_decode_error hd s)
  | ok i =>
    have hword : encode i = c := encode_of_decode hd
    rw [execWord_of_decode hd]
    exact exec_endsWithSticky_unchanged (fun h => hclr (h ▸ hword.symm)) (fun h => hrst (h ▸ hword.symm)) s

theorem codeNumber_eq_zero_iff (k : Code) : codeNumber k = 0 ↔ k = .ok := by
  cases k <;> decide

/-- One word: the flag stays clear exactly when it was clear and the response has code 0. -/
theorem execWord_sticky {c : Word} (hclr : c ≠ encode .stClr) (hrst : c ≠ encode .rst) (s : State) :
    ∃ t, execWord c s = .next t ∧ (t.status.sticky = false ↔ s.status.sticky = false ∧ t.response.code = 0) := by
  obtain ⟨k, hk, h⟩ | ⟨v, u, h, hu⟩ := execWord_endsWithSticky hclr hrst s
  · refine ⟨failState k s, h, ⟨fun hf => Bool.noConfusion hf, fun ⟨_, h0⟩ => ?_⟩⟩
    exact absurd ((codeNumber_eq_zero_iff k).mp h0) hk
  · exact ⟨okState v u, h, ⟨fun hs => ⟨hu.symm.trans hs, rfl⟩, fun ⟨hs, _⟩ => hu.trans hs⟩⟩

/-- R358, for every flag at the start: word by word, the flag stays clear exactly while the codes are 0. -/
theorem runWords_sticky {ws : List Word} (hws : ∀ w ∈ ws, w ≠ encode .stClr ∧ w ≠ encode .rst) (s : State) :
    (runWords ws s).2.length = ws.length ∧
    ((runWords ws s).1.status.sticky = false ↔
      s.status.sticky = false ∧ ∀ r ∈ (runWords ws s).2, r.code = 0) := by
  induction ws generalizing s with
  | nil => simp [runWords]
  | cons c ws ih =>
    obtain ⟨⟨hclr, hrst⟩, hrest⟩ := List.forall_mem_cons.mp hws
    obtain ⟨t, ht, hsticky⟩ := execWord_sticky hclr hrst s
    obtain ⟨hlen, hiff⟩ := ih hrest t
    rw [runWords_cons ht]
    refine ⟨by rw [List.length_cons, List.length_cons, hlen], ?_⟩
    rw [hiff, hsticky, List.forall_mem_cons, and_assoc]

/-- Settles O59: the flag is clear at the start, so at the end it says just that no word of the run failed. -/
theorem stickyFlagCertifiesRun : Obligations.StickyFlagCertifiesRun := by
  intro ws s hs hws
  obtain ⟨hlen, hiff⟩ := runWords_sticky hws s
  exact ⟨hlen, hiff.trans (and_iff_right hs)⟩

end Sys2Proof.Machine
end

section
/-! GF(2^8) as a field (41_gf.md section 1): the product is linear in each operand and doubling commutes with it, so it is
addition of exponents on the powers of 2, which are all the non-zero bytes. -/

namespace Sys2Proof.Machine

open Sys2Proof.Claims

/-! ## The multiplier is linear over exclusive-or -/

section
variable {n : Nat} (x : BitVec n)

/-! The library's laws of exclusive-or, with the zero word written `0` as the model writes it, so that `rw` finds it. -/

theorem xor_zero_word : x ^^^ 0 = x := BitVec.xor_zero

theorem zero_word_xor : 0 ^^^ x = x := BitVec.zero_xor

theorem xor_self_word : x ^^^ x = 0 := BitVec.xor_self

theorem eq_of_xor_eq_zero_word {x y : BitVec n} (h : x ^^^ y = 0) : x = y := BitVec.xor_eq_zero_iff.mp h

end

/-- Exclusive-or has characteristic 2: a term that stands on both sides drops out. -/
theorem xor_xor_xor_cancel {n : Nat} (x y c : BitVec n) : (x ^^^ c) ^^^ (y ^^^ c) = x ^^^ y := by
  rw [BitVec.xor_comm y c, BitVec.xor_assoc, ← BitVec.xor_assoc c, BitVec.xor_self, BitVec.zero_xor]

theorem gf8Double_xor (z w : Byte) : gf8Double (z ^^^ w) = gf8Double z ^^^ gf8Double w := by
  simp only [gf8Double, BitVec.getLsbD_xor, BitVec.shiftLeft_xor_distrib]
  cases z.getLsbD 7 <;> cases w.getLsbD 7 <;> simp [xor_xor_xor_cancel] <;> ac_rfl

theorem gf8MulStep_xor_left (a a' b z w : Byte) (i : Nat) :
    gf8MulStep (a ^^^ a') b (z ^^^ w) i = gf8MulStep a b z i ^^^ gf8MulStep a' b w i := by
  simp only [gf8MulStep, gf8Double_xor]
  split
  · ac_rfl
  · rfl

theorem gf8MulStep_xor_right (a b b' z w : Byte) (i : Nat) :
    gf8MulStep a (b ^^^ b') (z ^^^ w) i = gf8MulStep a b z i ^^^ gf8MulStep a b' w i := by
  simp only [gf8MulStep, gf8Double_xor, BitVec.getLsbD_xor]
  cases b.getLsbD i <;> cases b'.getLsbD i <;> simp [xor_xor_xor_cancel] <;> ac_rfl

theorem gf8MulStep_double_left (a b z : Byte) (i : Nat) :
    gf8MulStep (gf8Double a) b (gf8Double z) i = gf8Double (gf8MulStep a b z i) := by
  simp only [gf8MulStep]
  split
  · rw [gf8Double_xor]
  · rfl

theorem gf8Mul_xor_left (a a' b : Byte) : gf8Mul (a ^^^ a') b = gf8Mul a b ^^^ gf8Mul a' b := by
  have hloop (l : List Nat) (z w : Byte) : l.foldl (gf8MulStep (a ^^^ a') b) (z ^^^ w) =
      l.foldl (gf8MulStep a b) z ^^^ l.foldl (gf8MulStep a' b) w := by
    induction l generalizing z w with
    | nil => rfl
    | cons i l ih => rw [List.foldl_cons, gf8MulStep_xor_left, ih, List.foldl_cons, List.foldl_cons]
  exact hloop _ 0 0

theorem gf8Mul_xor_right (a b b' : Byte) : gf8Mul a (b ^^^ b') = gf8Mul a b ^^^ gf8Mul a b' := by
  have hloop (l : List Nat) (z w : Byte) : l.foldl (gf8MulStep a (b ^^^ b')) (z ^^^ w) =
      l.foldl (gf8MulStep a b) z ^^^ l.foldl (gf8MulStep a b') w := by
    induction l generalizing z w with
    | nil => rfl
    | cons i l ih => rw [List.foldl_cons, gf8MulStep_xor_right, ih, List.foldl_cons, List.foldl_cons]
  exact hloop _ 0 0

theorem gf8Mul_double_left (a b : Byte) : gf8Mul (gf8Double a) b = gf8Double (gf8Mul a b) := by
  have hloop (l : List Nat) (z : Byte) :
      l.foldl (gf8MulStep (gf8Double a) b) (gf8Double z) = gf8Double (l.foldl (gf8MulStep a b) z) := by
    induction l generalizing z with
    | nil => rfl
    | cons i l ih => rw [List.foldl_cons, gf8MulStep_double_left, ih, List.foldl_cons]
  exact hloop _ 0

/-- Only bit 0 of the multiplier 1 adds anything, and nothing is doubled behind it. -/
theorem gf8Mul_one_right (a : Byte) : gf8Mul a 1 = a := by
  simp [gf8Mul, gf8MulStep, gf8Double]

theorem gf8Mul_one_left : ∀ b : Byte, gf8Mul 1 b = b := by decide

/-! ## The product adds exponents -/

theorem gf8Mul_pow8_left (i : Nat) (b : Byte) : gf8Mul (pow8 i) b = gf8Double^[i] b := by
  induction i with
  | zero => exact gf8Mul_one_left b
  | succ i ih => rw [pow8_succ, gf8Mul_double_left, ih, Function.iterate_succ_apply']

theorem pow8_eq_iterate (i : Nat) : pow8 i = gf8Double^[i] 1 := by
  rw [← gf8Mul_pow8_left, gf8Mul_one_right]

theorem gf8Mul_pow8 (i j : Nat) : gf8Mul (pow8 i) (pow8 j) = pow8 (i + j) := by
  rw [gf8Mul_pow8_left, pow8_eq_iterate, pow8_eq_iterate, ← Function.iterate_add_apply]

theorem pow8_period : pow8 255 = 1 := by
  rw [← exp8_eq_pow8 le_rfl]
  rfl

theorem pow8_add_period (i : Nat) : pow8 (i + 255) = pow8 i := by
  rw [← gf8Mul_pow8, pow8_period, gf8Mul_one_right]

theorem pow8_mod (i : Nat) : pow8 (i % 255) = pow8 i := by
  have hper : Function.Periodic pow8 255 := pow8_add_period
  exact hper.map_mod_nat i

theorem exp8_mod (i : Nat) : exp8 (i % 255) = pow8 i := by
  rw [exp8_eq_pow8 (Nat.mod_lt i (by decide)).le, pow8_mod]

/-- R35: the printed `exp8` table has no byte twice below entry 255. -/
theorem log8_exp8_toNat : ∀ i : Byte, i ≠ 255 → log8 (exp8 i.toNat) = i.toNat := by decide

theorem log8_exp8 {i : Nat} (hi : i < 255) : log8 (exp8 i) = i := by
  have hne : BitVec.ofNatLT i (by omega) ≠ (255 : Byte) := fun h => hi.ne (congrArg BitVec.toNat h)
  exact log8_exp8_toNat _ hne

/-! ## The laws -/

theorem gf8Mul_of_ne_zero {a b : Byte} (ha : a ≠ 0) (hb : b ≠ 0) : gf8Mul a b = pow8 (log8 a + log8 b) := by
  rw [← gf8Mul_pow8, pow8_log8 ha, pow8_log8 hb]

theorem gf8Mul_comm (a b : Byte) : gf8Mul a b = gf8Mul b a := by
  by_cases ha : a = 0
  · rw [ha, gf8Mul_zero_left, gf8Mul_zero_right]
  by_cases hb : b = 0
  · rw [hb, gf8Mul_zero_left, gf8Mul_zero_right]
  rw [gf8Mul_of_ne_zero ha hb, gf8Mul_of_ne_zero hb ha, Nat.add_comm]

theorem gf8Mul_assoc (a b c : Byte) : gf8Mul (gf8Mul a b) c = gf8Mul a (gf8Mul b c) := by
  by_cases ha : a = 0
  · rw [ha, gf8Mul_zero_left, gf8Mul_zero_left, gf8Mul_zero_left]
  by_cases hb : b = 0
  · rw [hb, gf8Mul_zero_left, gf8Mul_zero_right, gf8Mul_zero_left]
  by_cases hc : c = 0
  · rw [hc, gf8Mul_zero_right, gf8Mul_zero_right, gf8Mul_zero_right]
  rw [← pow8_log8 ha, ← pow8_log8 hb, ← pow8_log8 hc]
  simp only [gf8Mul_pow8, Nat.add_assoc]

/-- R112: the byte whose exponent is the one up to 255. -/
theorem gf8Mul_inverse {a : Byte} (ha : a ≠ 0) : gf8Mul a (exp8 ((255 - log8 a) % 255)) = 1 := by
  have hexp : log8 a + (255 - log8 a) = 255 := Nat.add_sub_cancel' (log8_lt a).le
  calc gf8Mul a (exp8 ((255 - log8 a) % 255))
      = gf8Mul (pow8 (log8 a)) (pow8 (255 - log8 a)) := by rw [exp8_mod, pow8_log8 ha]
    _ = 1 := by rw [gf8Mul_pow8, hexp, pow8_period]

theorem gf8Mul_left_cancel {a b c : Byte} (ha : a ≠ 0) (h : gf8Mul a b = gf8Mul a c) : b = c := by
  have hleft (x : Byte) : gf8Mul (exp8 ((255 - log8 a) % 255)) (gf8Mul a x) = x := by
    rw [← gf8Mul_assoc, gf8Mul_comm _ a, gf8Mul_inverse ha, gf8Mul_one_left]
  rw [← hleft b, h, hleft]

/-- Settles O10: the laws of linear maps and of adding exponents, the inverse of the tables, and the tables themselves. -/
theorem gf8FieldLaws : Obligations.Gf8FieldLaws := by
  refine ⟨gf8Mul_comm, fun a b c => (gf8Mul_assoc a b c).symm, gf8Mul_xor_right,
    fun a => ⟨gf8Mul_one_right a, gf8Mul_zero_right a⟩, fun a ha => ?_, fun a b ha hb => ?_, fun a => gf8Mul_inverse,
    fun i hi => ?_, fun a ha => ?_⟩
  · exact ⟨_, gf8Mul_inverse ha, fun b hb => gf8Mul_left_cancel ha (hb.trans (gf8Mul_inverse ha).symm)⟩
  · rw [exp8_mod, gf8Mul_of_ne_zero ha hb]
  · rw [gf8Mul_two, exp8_succ hi]
  · refine ⟨log8 a, ⟨log8_lt a, exp8_log8 a ha⟩, fun i ⟨hi, hia⟩ => ?_⟩
    rw [← hia, log8_exp8 hi]

end Sys2Proof.Machine
end

section
/-! The Reed-Solomon encoder as polynomial arithmetic (43_rs_encoder.md sections 1 to 4): values of byte polynomials, the roots
of the generator, the divider as long division, and the laws of the remainder. -/

namespace Sys2Proof.Machine

open Sys2Proof.Safety Sys2Proof.Claims

/-! ## Values of byte polynomials -/

/-- `x^n` in GF(2^8). -/
def gf8Pow (x : Byte) (n : Nat) : Byte := (gf8Mul · x)^[n] 1

theorem gf8Pow_zero (x : Byte) : gf8Pow x 0 = 1 := rfl

theorem gf8Pow_succ (x : Byte) (n : Nat) : gf8Pow x (n + 1) = gf8Mul (gf8Pow x n) x :=
  Function.iterate_succ_apply' ..

theorem horner8_nil (x : Byte) : horner8 [] x = 0 := rfl

theorem horner8_concat (p : List Byte) (c x : Byte) : horner8 (p ++ [c]) x = gf8Mul (horner8 p x) x ^^^ c := by
  rw [horner8, List.foldl_concat, ← horner8]

theorem horner8_append (p q : List Byte) (x : Byte) :
    horner8 (p ++ q) x = gf8Mul (horner8 p x) (gf8Pow x q.length) ^^^ horner8 q x := by
  induction q using List.reverseRecOn with
  | nil => rw [List.append_nil, List.length_nil, gf8Pow_zero, gf8Mul_one_right, horner8_nil, xor_zero_word]
  | append_singleton q c ih =>
    rw [← List.append_assoc, horner8_concat, ih, gf8Mul_xor_left, gf8Mul_assoc, ← gf8Pow_succ, horner8_concat,
      List.length_append, List.length_singleton, BitVec.xor_assoc]

theorem horner8_cons (c : Byte) (p : List Byte) (x : Byte) :
    horner8 (c :: p) x = gf8Mul c (gf8Pow x p.length) ^^^ horner8 p x := by
  have hc : horner8 [c] x = c := by rw [← List.nil_append [c], horner8_concat, horner8_nil, gf8Mul_zero_left, zero_word_xor]
  rw [← List.singleton_append, horner8_append, hc]

theorem horner8_map_mul (p : List Byte) (r x : Byte) : horner8 (p.map (gf8Mul · r)) x = gf8Mul (horner8 p x) r := by
  induction p with
  | nil => rw [List.map_nil, horner8_nil, gf8Mul_zero_left]
  | cons c p ih =>
    rw [List.map_cons, horner8_cons, ih, horner8_cons, List.length_map, gf8Mul_xor_left, gf8Mul_assoc, gf8Mul_assoc,
      gf8Mul_comm r]

theorem horner8_zipWith_xor {p q : List Byte} (h : p.length = q.length) (x : Byte) :
    horner8 (List.zipWith (· ^^^ ·) p q) x = horner8 p x ^^^ horner8 q x := by
  induction p generalizing q with
  | nil =>
    rw [List.zipWith_nil_left, List.length_eq_zero_iff.mp h.symm, horner8_nil, xor_self_word]
  | cons a p ih =>
    obtain ⟨b, q, rfl⟩ := List.exists_cons_of_length_eq_add_one h.symm
    have hlen : p.length = q.length := Nat.succ_injective h
    rw [List.zipWith_cons_cons, horner8_cons, ih hlen, horner8_cons, horner8_cons, List.length_zipWith, hlen,
      Nat.min_self, gf8Mul_xor_left]
    ac_rfl

/-! ## The roots of the generator (R160) -/

theorem horner8_mulLinear (g : List Byte) (r x : Byte) :
    horner8 (mulLinear g r) x = gf8Mul (horner8 g x) (x ^^^ r) := by
  rw [mulLinear, horner8_zipWith_xor (by simp), horner8_concat, horner8_cons, horner8_map_mul, gf8Mul_zero_left,
    xor_zero_word, zero_word_xor, gf8Mul_xor_right]

/-- A value at which one factor of a product vanishes. -/
theorem horner8_genPoly {d i : Nat} (hi : i < d) : horner8 (genPoly d) (pow8 i) = 0 := by
  induction d with
  | zero => omega
  | succ d ih =>
    rw [genPoly_succ, horner8_mulLinear]
    by_cases h : i = d
    · rw [h, xor_self_word, gf8Mul_zero_right]
    · rw [ih (by omega), gf8Mul_zero_left]

theorem one_cons_rsGen {d : Nat} (hd : 1 ≤ d) : 1 :: rsGen d = genPoly d := by
  rw [rsGen_eq_tail_genPoly hd]
  exact List.cons_head?_tail (genPoly_head? d)

/-- Settles O21: the loop's coefficients are the product of the factors `x - 2^i`, and each of these has its root. -/
theorem generatorVanishesAtItsRoots : Obligations.GeneratorVanishesAtItsRoots := by
  intro d i hd _ hi
  rw [one_cons_rsGen hd, horner8_genPoly hi]

/-! ## The divider at a root of the divisor (R162, R163) -/

/-- A step shifts the window, that is multiplies by `x`, and adds a multiple of the coefficients. -/
theorem rsStep_eq_zipWith_xor (W C : List Byte) (b : Byte) :
    (rsStep W C b).1 = List.zipWith (· ^^^ ·) (W.tail ++ [0]) (C.map (gf8Mul · (b ^^^ W.headD 0))) := by
  rw [List.zipWith_map_right]
  rfl

section
variable {C : List Byte} {x : Byte} (hroot : horner8 (1 :: C) x = 0)
include hroot

/-- The leading term of the divisor is the sum of the others. -/
theorem horner8_coef_of_root : horner8 C x = gf8Pow x C.length := by
  rw [horner8_cons, gf8Mul_one_left] at hroot
  exact (eq_of_xor_eq_zero_word hroot).symm

theorem horner8_rsStep {W : List Byte} (hlen : W.length = C.length) (hC : C ≠ []) (b : Byte) :
    horner8 (rsStep W C b).1 x = gf8Mul (horner8 W x) x ^^^ gf8Mul b (gf8Pow x C.length) := by
  have hW : W ≠ [] := List.ne_nil_of_length_pos (hlen ▸ List.length_pos_of_ne_nil hC)
  obtain ⟨w, W, rfl⟩ := List.exists_cons_of_ne_nil hW
  have hlen' : (W ++ [0]).length = (C.map (gf8Mul · (b ^^^ w))).length := by simpa using hlen
  rw [rsStep_eq_zipWith_xor, List.tail_cons, List.headD_cons, horner8_zipWith_xor hlen', horner8_concat,
    horner8_map_mul, horner8_coef_of_root hroot, horner8_cons, gf8Mul_xor_left, gf8Mul_assoc w, ← gf8Pow_succ,
    gf8Mul_comm (gf8Pow x C.length), gf8Mul_xor_left, ← hlen, List.length_cons, xor_zero_word]
  ac_rfl

theorem horner8_foldl_rsStep (hC : C ≠ []) (D : List Byte) {W : List Byte} (hlen : W.length = C.length) :
    horner8 (D.foldl (fun W b => (rsStep W C b).1) W) x =
      gf8Mul (horner8 W x) (gf8Pow x D.length) ^^^ gf8Mul (horner8 D x) (gf8Pow x C.length) := by
  induction D generalizing W with
  | nil => rw [List.foldl_nil, List.length_nil, gf8Pow_zero, gf8Mul_one_right, horner8_nil, gf8Mul_zero_left, xor_zero_word]
  | cons b D ih =>
    rw [List.foldl_cons, ih (rsStep_length W C b hlen hC), horner8_rsStep hroot hlen hC, horner8_cons, gf8Mul_xor_left,
      gf8Mul_xor_left, gf8Mul_assoc, gf8Mul_comm x, ← gf8Pow_succ, List.length_cons, gf8Mul_assoc, gf8Mul_assoc,
      gf8Mul_comm (gf8Pow x C.length), BitVec.xor_assoc]

theorem horner8_append_rsRem (hC : C ≠ []) (D : List Byte) : horner8 (D ++ rsRem D C) x = 0 := by
  have hzero (n : Nat) : horner8 (List.replicate n 0) x = 0 := by
    induction n with
    | zero => rfl
    | succ n ih => rw [List.replicate_succ, horner8_cons, ih, gf8Mul_zero_left, xor_zero_word]
  rw [horner8_append, rsRem_length D C hC, rsRem, horner8_foldl_rsStep hroot hC D List.length_replicate, hzero,
    gf8Mul_zero_left, zero_word_xor, xor_self_word]

end

/-- Settles O29: at a root of the divisor `x^d D(x)` and its remainder have the same value, and the two cancel. -/
theorem systematicCodewordVanishesAtRoots : Obligations.SystematicCodewordVanishesAtRoots := by
  intro D d i hd _ hi
  have hne : rsGen d ≠ [] := List.ne_nil_of_length_pos ((rsGen_length d hd).symm ▸ hd)
  have hroot : horner8 (1 :: rsGen d) (pow8 i) = 0 := by rw [one_cons_rsGen hd, horner8_genPoly hi]
  exact horner8_append_rsRem hroot hne D

end Sys2Proof.Machine
end

section
/-! The divider as long division, the laws of the remainder, and the commands over it (43_rs_encoder.md sections 2 to 4). -/

namespace Sys2Proof.Machine

open Sys2Proof.Safety Sys2Proof.Claims

/-! ## The divider is long division (R163) -/

/-- The polynomial `p` with the window `W` added to its leading terms. -/
def addToFront : List Byte → List Byte → List Byte
  | [], p => p
  | _ :: _, [] => []
  | w :: W, a :: p => (w ^^^ a) :: addToFront W p

theorem addToFront_nil (p : List Byte) : addToFront [] p = p := rfl

theorem addToFront_cons (w a : Byte) (W p : List Byte) :
    addToFront (w :: W) (a :: p) = (w ^^^ a) :: addToFront W p := rfl

theorem addToFront_length {W p : List Byte} (h : W.length ≤ p.length) : (addToFront W p).length = p.length := by
  induction W generalizing p with
  | nil => rfl
  | cons w W ih =>
    obtain ⟨a, p, rfl⟩ := List.exists_cons_of_length_pos (Nat.zero_lt_of_lt h)
    rw [addToFront_cons, List.length_cons, ih (Nat.le_of_succ_le_succ h), List.length_cons]

theorem addToFront_zeros (W : List Byte) : addToFront W (List.replicate W.length 0) = W := by
  induction W with
  | nil => rfl
  | cons w W ih => rw [List.length_cons, List.replicate_succ, addToFront_cons, ih, xor_zero_word]

theorem zeros_addToFront {n : Nat} {p : List Byte} (h : n ≤ p.length) : addToFront (List.replicate n 0) p = p := by
  induction n generalizing p with
  | zero => rfl
  | succ n ih =>
    obtain ⟨a, p, rfl⟩ := List.exists_cons_of_length_pos (Nat.zero_lt_of_lt h)
    rw [List.replicate_succ, addToFront_cons, ih (by simpa using h), zero_word_xor]

/-- The cancelling step of long division adds a multiple of the coefficients to the front. -/
theorem longDivision_cons {C p : List Byte} (h : C.length ≤ p.length) (n : Nat) (f : Byte) :
    longDivision C (n + 1) (f :: p) = longDivision C n (addToFront (C.map (gf8Mul · f)) p) := by
  have hfront {C p : List Byte} (h : C.length ≤ p.length) :
      List.zipWith (fun a c => a ^^^ gf8Mul c f) (p.take C.length) C ++ p.drop C.length =
        addToFront (C.map (gf8Mul · f)) p := by
    induction C generalizing p with
    | nil => rw [List.zipWith_nil_right]; rfl
    | cons c C ih =>
      obtain ⟨a, p, rfl⟩ := List.exists_cons_of_length_pos (Nat.zero_lt_of_lt h)
      rw [List.length_cons, List.take_succ_cons, List.zipWith_cons_cons, List.drop_succ_cons, List.cons_append,
        ih (by simpa using h), List.map_cons, addToFront_cons, BitVec.xor_comm]
  rw [longDivision, hfront h]

/-- Adding a shifted window and then a multiple of the coefficients is adding the window after the step. -/
theorem addToFront_addToFront {A W p : List Byte} (hA : A.length = W.length + 1) (hp : A.length ≤ p.length) :
    addToFront A (addToFront W p) = addToFront (List.zipWith (· ^^^ ·) (W ++ [0]) A) p := by
  induction W generalizing A p with
  | nil =>
    obtain ⟨a, rfl⟩ := List.length_eq_one_iff.mp hA
    rw [addToFront_nil, List.nil_append, List.zipWith_cons_cons, List.zipWith_nil_left, zero_word_xor]
  | cons w W ih =>
    obtain ⟨a, A, rfl⟩ := List.exists_cons_of_length_eq_add_one hA
    obtain ⟨b, p, rfl⟩ := List.exists_cons_of_length_pos (Nat.zero_lt_of_lt hp)
    rw [addToFront_cons, addToFront_cons, ih (Nat.succ_injective hA) (Nat.le_of_succ_le_succ hp), List.cons_append,
      List.zipWith_cons_cons, addToFront_cons]
    ac_rfl

/-- The window is what long division has left to do on the leading terms, at every step. -/
theorem foldl_rsStep_eq_longDivision {C : List Byte} (hC : C ≠ []) (D : List Byte) {W : List Byte}
    (hlen : W.length = C.length) :
    D.foldl (fun W b => (rsStep W C b).1) W =
      longDivision C D.length (addToFront W (D ++ List.replicate C.length 0)) := by
  induction D generalizing W with
  | nil => rw [List.foldl_nil, List.nil_append, ← hlen, addToFront_zeros]; rfl
  | cons b D ih =>
    rw [List.foldl_cons, ih (rsStep_length W C b hlen hC)]
    have hW : W ≠ [] := List.ne_nil_of_length_pos (hlen ▸ List.length_pos_of_ne_nil hC)
    obtain ⟨w, W, rfl⟩ := List.exists_cons_of_ne_nil hW
    rw [List.length_cons] at hlen
    have hfits : C.length ≤ (D ++ List.replicate C.length (0 : Byte)).length := by simp
    have hrest : C.length ≤ (addToFront W (D ++ List.replicate C.length 0)).length := by
      rwa [addToFront_length (by omega)]
    rw [List.cons_append, addToFront_cons, List.length_cons, longDivision_cons hrest,
      addToFront_addToFront (by simpa using hlen.symm) (by simp), rsStep_eq_zipWith_xor, List.tail_cons, List.headD_cons,
      BitVec.xor_comm b]

/-- Settles O26: the window of zeros adds nothing to the data. -/
theorem remainderIsPolynomialRemainder : Obligations.RemainderIsPolynomialRemainder := by
  intro D C hC
  rw [rsRem, foldl_rsStep_eq_longDivision hC D List.length_replicate, zeros_addToFront (by simp)]

/-! ## The laws of the remainder (section 2, properties 1 to 5) -/

theorem windowAfter_zeros (C : List Byte) (n : Nat) : windowAfter C (List.replicate n 0) 0 = List.replicate C.length 0 := by
  have hslot (i : Nat) : (List.replicate n (0 : Byte)).getD i 0 = 0 := by simp
  simp only [windowAfter, hslot, xor_self_word, gf8Mul_zero_right, List.map_const', List.length_range]

theorem foldl_windowAfter_zeros (C : List Byte) (m : Nat) :
    (List.replicate m 0).foldl (windowAfter C) (List.replicate C.length 0) = List.replicate C.length 0 := by
  induction m with
  | zero => rfl
  | succ m ih => rw [List.replicate_succ, List.foldl_cons, windowAfter_zeros, ih]

theorem zipWith_xor_getD {W V : List Byte} (h : W.length = V.length) (i : Nat) :
    (List.zipWith (· ^^^ ·) W V).getD i 0 = W.getD i 0 ^^^ V.getD i 0 := by
  induction W generalizing V i with
  | nil => rw [List.length_eq_zero_iff.mp h.symm, List.zipWith_nil_left, List.getD_nil, xor_self_word]
  | cons w W ih =>
    obtain ⟨v, V, rfl⟩ := List.exists_cons_of_length_eq_add_one h.symm
    cases i with
    | zero => rfl
    | succ i => exact ih (Nat.succ_injective h) i

theorem windowAfter_xor (C : List Byte) {W V : List Byte} (h : W.length = V.length) (b e : Byte) :
    windowAfter C (List.zipWith (· ^^^ ·) W V) (b ^^^ e) =
      List.zipWith (· ^^^ ·) (windowAfter C W b) (windowAfter C V e) := by
  rw [windowAfter, windowAfter, windowAfter, List.zipWith_map, List.zipWith_self]
  refine List.map_congr_left fun i _ => ?_
  have hfactor : b ^^^ e ^^^ (W.getD 0 0 ^^^ V.getD 0 0) = (b ^^^ W.getD 0 0) ^^^ (e ^^^ V.getD 0 0) := by ac_rfl
  rw [zipWith_xor_getD h, zipWith_xor_getD h, hfactor, gf8Mul_xor_right]
  ac_rfl

theorem windowAfter_length (C W : List Byte) (b : Byte) : (windowAfter C W b).length = C.length := by
  rw [windowAfter, List.length_map, List.length_range]

theorem foldl_windowAfter_xor (C : List Byte) {D E W V : List Byte} (hD : D.length = E.length) (h : W.length = V.length) :
    (List.zipWith (· ^^^ ·) D E).foldl (windowAfter C) (List.zipWith (· ^^^ ·) W V) =
      List.zipWith (· ^^^ ·) (D.foldl (windowAfter C) W) (E.foldl (windowAfter C) V) := by
  induction D generalizing E W V with
  | nil => rw [List.length_eq_zero_iff.mp hD.symm]; rfl
  | cons b D ih =>
    obtain ⟨e, E, rfl⟩ := List.exists_cons_of_length_eq_add_one hD.symm
    rw [List.zipWith_cons_cons, List.foldl_cons, windowAfter_xor C h, List.foldl_cons, List.foldl_cons]
    exact ih (Nat.succ_injective hD) ((windowAfter_length C W b).trans (windowAfter_length C V e).symm)

/-- The window of zeros takes a byte 1 to the coefficients themselves. -/
theorem windowAfter_one (C : List Byte) (n : Nat) : windowAfter C (List.replicate n 0) 1 = C := by
  have hslot (i : Nat) : (List.replicate n (0 : Byte)).getD i 0 = 0 := by simp
  simp only [windowAfter, hslot, xor_zero_word, gf8Mul_one_right, zero_word_xor]
  refine List.ext_getElem (by simp) fun i _ hi => ?_
  rw [List.getElem_map, List.getElem_range, List.getD_eq_getElem _ 0 hi]

/-- A byte equal to the front of the window only shifts it. -/
theorem windowAfter_front {C W : List Byte} {w : Byte} (h : W.length + 1 = C.length) :
    windowAfter C (w :: W) w = W ++ [0] := by
  refine List.ext_getElem (by rw [windowAfter_length, List.length_append, List.length_singleton, h]) fun i _ hi => ?_
  have hshift : (W ++ [0])[i] = (w :: W).getD (i + 1) 0 := by
    rw [← List.getD_eq_getElem _ 0 hi]
    exact tail_append_zero_getD (w :: W) i
  simp only [hshift, windowAfter, List.getElem_map, List.getElem_range, List.getD_cons_zero, xor_self_word,
    gf8Mul_zero_right, xor_zero_word]

/-- Feeding the window to itself empties it from the front. -/
theorem foldl_windowAfter_self {C U V : List Byte} (h : U.length + V.length = C.length) :
    U.foldl (windowAfter C) (U ++ V) = V ++ List.replicate U.length 0 := by
  induction U generalizing V with
  | nil => rw [List.foldl_nil, List.nil_append, List.length_nil, List.replicate_zero, List.append_nil]
  | cons u U ih =>
    have hlen : (U ++ V).length + 1 = C.length := by
      rw [← h, List.length_append, List.length_cons]; omega
    have hrest : U.length + (V ++ [0]).length = C.length := by
      rw [← h, List.length_append, List.length_singleton, List.length_cons]; omega
    rw [List.foldl_cons, List.cons_append, windowAfter_front hlen, List.append_assoc, ih hrest, List.append_assoc,
      List.length_cons, List.replicate_succ, List.singleton_append]

/-- Settles O28: each law is one of the window, carried through the fold. -/
theorem remainderLaws : Obligations.RemainderLaws := by
  intro C hC
  refine ⟨rfl, fun m D => ?_, fun D E hlen => ?_, ?_, fun D => ?_⟩
  · rw [rsRem_eq_foldl_windowAfter hC, List.foldl_append, foldl_windowAfter_zeros, ← rsRem_eq_foldl_windowAfter hC]
  · have hzero : List.zipWith (· ^^^ ·) (List.replicate C.length (0 : Byte)) (List.replicate C.length 0) =
        List.replicate C.length 0 := by rw [List.zipWith_replicate', xor_self_word]
    have hfold := foldl_windowAfter_xor C (W := List.replicate C.length 0) (V := List.replicate C.length 0) hlen rfl
    rwa [hzero, ← rsRem_eq_foldl_windowAfter hC, ← rsRem_eq_foldl_windowAfter hC, ← rsRem_eq_foldl_windowAfter hC] at hfold
  · rw [rsRem_eq_foldl_windowAfter hC, List.foldl_cons, windowAfter_one, List.foldl_nil]
  · have hself := foldl_windowAfter_self (C := C) (U := rsRem D C) (V := []) (rsRem_length D C hC)
    rw [List.append_nil, List.nil_append, rsRem_length D C hC] at hself
    rw [rsRem_eq_foldl_windowAfter hC, List.foldl_append, ← rsRem_eq_foldl_windowAfter hC, hself]

/-! ## Stepping and whole division (R171, R173) -/

theorem runWords_encode_cons {i : Instr} {s t : State} (h : exec i s = .next t) (ws : List Word) :
    runWords (encode i :: ws) s = ((runWords ws t).1, t.response :: (runWords ws t).2) :=
  runWords_cons ((execWord_encode i s).trans h) ws

/-- With a divisor loaded, one `RM.STEP` per byte is the fold of the steps over the window. -/
theorem runWords_rmStep (D : List Byte) {s : State} (hdeg : s.deg ≠ 0) :
    let out := runWords ((D.map Instr.rmStep).map encode) s
    out.1.rem = D.foldl (fun W b => (rsStep W s.coef b).1) s.rem ∧ out.1.coef = s.coef ∧ out.1.cw = s.cw ∧
      ∀ r ∈ out.2, r.code = 0 := by
  induction D generalizing s with
  | nil => exact ⟨rfl, rfl, rfl, fun _ hr => nomatch hr⟩
  | cons b D ih =>
    rw [List.map_cons, List.map_cons, runWords_encode_cons (exec_rmStep_divisor b hdeg)]
    obtain ⟨hrem, hcoef, hcw, hcodes⟩ := @ih (done _ { s with rem := (rsStep s.rem s.coef b).1 }) hdeg
    exact ⟨hrem, hcoef, hcw, List.forall_mem_cons.mpr ⟨rfl, hcodes⟩⟩

/-- Settles O27: both are the fold of the same steps over the slice, from a window of `DEG` zeros. -/
theorem steppingEqualsWholeDivision : Obligations.SteppingEqualsWholeDivision := by
  intro off len s hinv hdeg hslice
  obtain ⟨hrem, hcoef, hcw, hcodes⟩ := runWords_rmStep ((s.cw.drop off.toNat).take len.toNat)
    (s := done 0 { s with rem := List.replicate s.deg.toNat 0 }) hdeg
  rw [List.map_cons, runWords_encode_cons (exec_rmInit_divisor hdeg),
    runWords_encode_cons (exec_rsRem_divisor hslice hdeg)]
  refine ⟨hrem.trans ?_, hcoef, hcw, List.forall_mem_cons.mpr ⟨rfl, hcodes⟩, List.forall_mem_singleton.mpr rfl⟩
  rw [runWords, done, rsRem, hinv.coefLength]
  rfl

/-! ## The coefficient commands (R167 to R169) -/

section
variable {i : BitVec 16} {s : State}

theorem exec_cfWr_inside (hi : i.toNat < s.deg.toNat) (v : BitVec 8) :
    exec (.cfWr i v) s = .next (done (num v.toNat) { s with coef := s.coef.set i.toNat v }) := by
  rw [exec, execCfWr, if_neg (Nat.not_le.mpr hi), ok_eq_next_done, zext_eq_num]
  rfl

theorem exec_cfWr_outside (hi : s.deg.toNat ≤ i.toNat) (v : BitVec 8) :
    exec (.cfWr i v) s = .next (failed .badOperand s) := by
  rw [exec, execCfWr, if_pos hi, fail_eq_next_failed]

theorem exec_cfRd_inside {c : Byte} (hi : i.toNat < s.deg.toNat) (hc : s.coef[i.toNat]? = some c) :
    exec (.cfRd i) s = .next (done (num c.toNat) s) := by
  rw [exec, execCfRd, if_neg (Nat.not_le.mpr hi), readAt_of_getElem? hc, ok_eq_next_done, zext_eq_num]

theorem exec_cfRd_outside (hi : s.deg.toNat ≤ i.toNat) : exec (.cfRd i) s = .next (failed .badOperand s) := by
  rw [exec, execCfRd, if_pos hi, fail_eq_next_failed]

end

/-- Settles O22: a degree is in range or refused, and an index lies below `DEG` or is refused. -/
theorem coefficientCommandsComplete : Obligations.CoefficientCommandsComplete := by
  intro s
  refine ⟨fun d h1 h2 => loadDegree_inRange h1 h2 (List.replicate · 0) s,
    fun d h => loadDegree_outOfRange h (List.replicate · 0) s, fun i v hi => exec_cfWr_inside hi v,
    fun i v hi => exec_cfWr_outside hi v, fun i c hlen hc => ?_, fun i => exec_cfRd_outside⟩
  obtain ⟨hi, -⟩ := List.getElem?_eq_some_iff.mp hc
  exact exec_cfRd_inside (hlen ▸ hi) hc

end Sys2Proof.Machine
end

section
/-! The numeric segment (42_bitbuf_segments.md R136, R143), reads behind writes (20_memory.md sections 1 and 5), the mask
predicate (45_mask.md R211 to R213), and the assembler's steps together (44_assembler.md R200). -/

namespace Sys2Proof.Machine

open Sys2Proof.Safety Sys2Proof.Claims

/-! ## The payload of a numeric segment, field by field (R136) -/

theorem isDigit_iff (c : Byte) : isDigit c = true ↔ 0x30 ≤ c.toNat ∧ c.toNat ≤ 0x39 := by
  simp only [isDigit, Bool.and_eq_true, decide_eq_true_eq]

theorem all_isDigit_iff (t : List Byte) : t.all isDigit = true ↔ ∀ c ∈ t, 0x30 ≤ c.toNat ∧ c.toNat ≤ 0x39 := by
  simp only [List.all_eq_true, isDigit_iff]

theorem digitValue_lt {c : Byte} (h : isDigit c = true) : digitValue c < 10 := by
  rw [digitValue]
  have := (isDigit_iff c).mp h
  omega

/-- R136: field `g` of 10 bits is the three digits from `3 g` on. -/
theorem numericBits_field_group {t : List Byte} (ht : t.all isDigit = true) {g : Nat} (hg : g < t.length / 3) :
    field (numericBits t) (10 * g) 10 = 100 * digit t (3 * g) + 10 * digit t (3 * g + 1) + digit t (3 * g + 2) := by
  induction t using numericBits.induct generalizing g with
  | case1 a b c rest ih =>
    simp only [List.all_cons, Bool.and_eq_true] at ht
    obtain ⟨ha, hb, hc, hrest⟩ := ht
    rw [numericBits]
    cases g with
    | zero =>
      have hfits : 100 * digitValue a + 10 * digitValue b + digitValue c < 2 ^ 10 := by
        have := digitValue_lt ha
        have := digitValue_lt hb
        have := digitValue_lt hc
        omega
      exact field_bitsOf_append_left hfits _
    | succ g =>
      rw [field_bitsOf_append_succ]
      exact ih hrest (by simp only [List.length_cons] at hg; omega)
  | case2 a b => simp at hg
  | case3 a => simp at hg
  | case4 => simp at hg

/-- R136: what stands behind the groups of three is the payload of the digits behind them. -/
theorem numericBits_field_rest (t : List Byte) (width : Nat) :
    field (numericBits t) (10 * (t.length / 3)) width = field (numericBits (t.drop (3 * (t.length / 3)))) 0 width := by
  induction t using numericBits.induct with
  | case1 a b c rest ih =>
    have hgroups : (a :: b :: c :: rest).length / 3 = rest.length / 3 + 1 := by
      simp only [List.length_cons]; omega
    rw [hgroups, numericBits, field_bitsOf_append_succ, ih]
    rfl
  | case2 a b => simp
  | case3 a => simp
  | case4 => rfl

theorem all_isDigit_drop {t : List Byte} (ht : t.all isDigit = true) (k : Nat) : (t.drop k).all isDigit = true :=
  List.all_eq_true.mpr fun c hc => List.all_eq_true.mp ht c (List.mem_of_mem_drop hc)

theorem digit_drop (t : List Byte) (k j : Nat) : digit (t.drop k) j = digit t (k + j) := by
  rw [digit, digit, List.getD_eq_getElem?_getD, List.getD_eq_getElem?_getD, List.getElem?_drop]

theorem numericBits_field_pair {t : List Byte} (ht : t.all isDigit = true) (hrest : t.length % 3 = 2) :
    field (numericBits t) (10 * (t.length / 3)) 7 = 10 * digit t (t.length - 2) + digit t (t.length - 1) := by
  have hstart : 3 * (t.length / 3) = t.length - 2 := by omega
  have hlast : t.length - 1 = t.length - 2 + 1 := by omega
  have hall := all_isDigit_drop ht (t.length - 2)
  obtain ⟨a, b, hab⟩ := List.length_eq_two.mp (show (t.drop (t.length - 2)).length = 2 by rw [List.length_drop]; omega)
  have hfirst := digit_drop t (t.length - 2) 0
  have hsecond := digit_drop t (t.length - 2) 1
  rw [numericBits_field_rest, hstart, hlast, ← hsecond, ← Nat.add_zero (t.length - 2), ← hfirst, Nat.add_zero, hab]
  rw [hab] at hall
  simp only [List.all_cons, List.all_nil, Bool.and_eq_true, and_true] at hall
  obtain ⟨ha, hb⟩ := hall
  have hfits : 10 * digitValue a + digitValue b < 2 ^ 7 := by
    have := digitValue_lt ha
    have := digitValue_lt hb
    omega
  exact field_bitsOf hfits

theorem numericBits_field_single {t : List Byte} (ht : t.all isDigit = true) (hrest : t.length % 3 = 1) :
    field (numericBits t) (10 * (t.length / 3)) 4 = digit t (t.length - 1) := by
  have hstart : 3 * (t.length / 3) = t.length - 1 := by omega
  have hall := all_isDigit_drop ht (t.length - 1)
  obtain ⟨a, ha⟩ := List.length_eq_one_iff.mp (show (t.drop (t.length - 1)).length = 1 by rw [List.length_drop]; omega)
  have hfirst := digit_drop t (t.length - 1) 0
  rw [Nat.add_zero] at hfirst
  rw [numericBits_field_rest, hstart, ← hfirst, ha]
  rw [ha] at hall
  have hfits : digitValue a < 2 ^ 4 := (digitValue_lt (by simpa using hall)).trans (by decide)
  exact field_bitsOf hfits

theorem exec_sgNum (s : State) : exec .sgNum s = build segNum isDigit true s := rfl

/-- Settles O16: the payload is `numericBits` of `TX`, known field by field, and the clauses are the branches of `build`. -/
theorem numericSegmentCompletes : Obligations.NumericSegmentCompletes := by
  rintro s _ rfl
  rw [exec_sgNum, ← numericBits_length]
  refine ⟨fun hseg hcs hlen => ?_, build_listFull, fun hseg hcs => ?_, fun hseg hcs hlen => ?_⟩
  · have hall := (all_isDigit_iff s.tx).mpr hcs
    exact ⟨numericBits s.tx, rfl, fun g => numericBits_field_group hall, numericBits_field_pair hall,
      numericBits_field_single hall, build_appends hseg rfl hall hlen⟩
  · refine build_charsetRefused hseg rfl (Bool.eq_false_iff.mpr fun hall => ?_)
    obtain ⟨c, hc, hout⟩ := hcs
    have := (all_isDigit_iff s.tx).mp hall c hc
    omega
  · exact build_payloadTooLong hseg rfl ((all_isDigit_iff s.tx).mpr hcs) hlen

/-! ## A read behind a write (20 R65) -/

theorem ofNat_toNat_of_lt {k : Nat} (h : k < 2 ^ 16) : (BitVec.ofNat 16 k).toNat = k := by
  rw [BitVec.toNat_ofNat, Nat.mod_eq_of_lt h]

/-- A buffer within an admissible capacity has indices of 16 bits. -/
theorem cwMax_lt : Config.cwMax < 2 ^ 16 := by decide

theorem bbMax_lt : Config.bbMax < 2 ^ 16 := by decide

theorem cwRd_after_cwPush {b : BitVec 8} {s t : State} (hroom : s.cw.length < Config.cwMax)
    (ht : exec (.cwPush b) s = .next t) :
    exec (.cwRd (BitVec.ofNat 16 s.cw.length)) t = .next (done (num b.toNat) t) := by
  rw [exec_cwPush_room b hroom.ne] at ht
  cases ht
  refine exec_cwRd_inside ?_
  rw [ofNat_toNat_of_lt (hroom.trans cwMax_lt)]
  exact List.getElem?_concat_length

theorem bbRd_after_bbApp {n : BitVec 5} {v : BitVec 16} {s t : State} (hn : n.toNat ≤ 16) (hv : v.toNat < 2 ^ n.toNat)
    (hroom : s.bb.length + n.toNat ≤ Config.bbMax) (ht : exec (.bbApp n v) s = .next t) {k : Nat} (hk : k < n.toNat) :
    exec (.bbRd (BitVec.ofNat 16 (s.bb.length + k))) t =
      .next (done (num (v.getLsbD (n.toNat - 1 - k)).toNat) t) := by
  rw [exec_bbApp_fits hn hv hroom] at ht
  cases ht
  refine readAt_of_getElem? ?_ bitWord _
  rw [ofNat_toNat_of_lt (lt_of_lt_of_le (Nat.add_lt_add_left hk _) (hroom.trans bbMax_lt.le))]
  exact (List.getElem?_append_right (Nat.le_add_right _ _)).trans
    (by rw [Nat.add_sub_cancel_left]; exact bitsOf_getElem? _ _ k hk)

section
variable {i : BitVec 16} {v : BitVec 8} {s t : State} (hi : i.toNat < s.deg.toNat) (ht : exec (.cfWr i v) s = .next t)
include hi ht

theorem cfRd_after_cfWr_same (hinv : Inv s) : exec (.cfRd i) t = .next (done (num v.toNat) t) := by
  rw [exec_cfWr_inside hi] at ht
  cases ht
  have hlen : i.toNat < s.coef.length := hinv.coefLength ▸ hi
  exact exec_cfRd_inside (s := done _ { s with coef := s.coef.set i.toNat v }) hi (List.getElem?_set_self hlen)

theorem cfRd_after_cfWr_other (hinv : Inv s) {j : BitVec 16} (hne : j ≠ i) {p : State}
    (hp : exec (.cfRd j) s = .next p) : ∃ q : State, exec (.cfRd j) t = .next q ∧ q.response = p.response := by
  rw [exec_cfWr_inside hi] at ht
  cases ht
  by_cases hj : s.deg.toNat ≤ j.toNat
  · rw [exec_cfRd_outside hj] at hp
    cases hp
    exact ⟨_, exec_cfRd_outside (s := done _ { s with coef := s.coef.set i.toNat v }) hj, rfl⟩
  · have hj : j.toNat < s.deg.toNat := Nat.not_le.mp hj
    have hc := List.getElem?_eq_getElem (hinv.coefLength.symm ▸ hj : j.toNat < s.coef.length)
    have hother : (s.coef.set i.toNat v)[j.toNat]? = s.coef[j.toNat]? :=
      List.getElem?_set_ne fun h => hne (BitVec.eq_of_toNat_eq h.symm)
    rw [exec_cfRd_inside hj hc] at hp
    cases hp
    exact ⟨_, exec_cfRd_inside (s := done _ { s with coef := s.coef.set i.toNat v }) hj (hother.trans hc), rfl⟩

end

/-- Settles O51: each read looks up the element that the write put there, or one that it left. -/
theorem readAfterWriteAnswersTheWrittenValue : Obligations.ReadAfterWriteAnswersTheWrittenValue :=
  ⟨fun _ _ _ hroom ht => cwRd_after_cwPush hroom ht,
    fun _ _ _ _ _ hinv hi ht =>
      ⟨cfRd_after_cfWr_same hi ht hinv, fun hne _ hp => cfRd_after_cfWr_other hi ht hinv hne hp⟩,
    fun _ _ _ _ hn hv hroom ht _ hk => bbRd_after_bbApp hn hv hroom ht hk⟩

/-! ## The mask predicate (R211 to R213) -/

theorem bitWord_eq_ite (b : Bool) : bitWord b = if b then 1 else 0 := by
  cases b <;> rfl

theorem exec_mkBit (m : BitVec 3) (x y : BitVec 8) (s : State) :
    exec (.mkBit m x y) s = .next (done (if maskFn m.toNat x.toNat y.toNat then 1 else 0) s) := by
  rw [← bitWord_eq_ite, ← ok_eq_next_done]
  rfl

/-- Settles O38: row by row the model's predicate is the stated one, and exclusive-or with it twice is none. -/
theorem maskPredicateCompletes : Obligations.MaskPredicateCompletes := by
  refine ⟨fun m x y s => ?_, fun m x y dark => ?_⟩
  · rw [exec_mkBit]
    generalize m.toNat = n
    match n with
    | 0 | 1 | 2 | 3 | 4 | 5 | 6 | n + 7 => rfl
  · rw [maskModule, maskModule, Bool.xor_assoc, Bool.xor_self, Bool.xor_false]

end Sys2Proof.Machine
end

section
/-! The assembler's five commands in order against the one function `assemble` (44_assembler.md R195 to R200). -/

namespace Sys2Proof.Machine

open Sys2Proof.Claims

/-! ## What each command makes of the bit stream -/

/-- The stream with its terminator (R196). -/
def terminated (S : List Bool) (cap : Nat) : List Bool := S ++ List.replicate (terminatorLength S.length cap) false

/-- The stream up to the byte boundary (R197). -/
def aligned (S : List Bool) : List Bool := S ++ List.replicate (alignLength S.length) false

/-- The stream with its pad codewords (R198). -/
def padded (S : List Bool) (cap : Nat) : List Bool := S ++ padBits ((8 * cap - S.length) / 8)

/-- The stream of a segment list at a version, filled up to `cap` codewords (R193, R196 to R198). -/
def assembledBits (L : List Segment) (ver cap : Nat) : List Bool :=
  padded (aligned (terminated (asCat L ver) cap)) cap

theorem assemble_fits {L : List Segment} {ver cap : Nat} (h : neededBits L ver ≤ 8 * cap) :
    assemble L ver cap = some (packAll (assembledBits L ver cap)) := by
  have hlen : (asCat L ver).length = neededBits L ver := (asCat_length L ver).trans (segTotal_eq_neededBits L ver)
  exact if_neg (by omega)

theorem assemble_tooLong {L : List Segment} {ver cap : Nat} (h : 8 * cap < neededBits L ver) :
    assemble L ver cap = none := by
  have hlen : (asCat L ver).length = neededBits L ver := (asCat_length L ver).trans (segTotal_eq_neededBits L ver)
  exact if_pos (by omega)

section
variable {S : List Bool} {cap : Nat}

theorem terminated_length_le (h : S.length ≤ 8 * cap) : (terminated S cap).length ≤ 8 * cap := by
  rw [terminated, List.length_append, List.length_replicate, terminatorLength]
  omega

theorem aligned_length_mod (S : List Bool) : (aligned S).length % 8 = 0 := by
  rw [aligned, List.length_append, List.length_replicate]
  exact alignLength_mod _

/-- The capacity is a byte boundary, so the next one does not lie beyond it. -/
theorem aligned_length_le (h : S.length ≤ 8 * cap) : (aligned S).length ≤ 8 * cap := by
  have hmod := aligned_length_mod S
  rw [aligned, List.length_append, List.length_replicate] at *
  have := alignLength_lt S.length
  omega

theorem padded_length (ha : S.length % 8 = 0) (h : S.length ≤ 8 * cap) : (padded S cap).length = 8 * cap := by
  rw [padded, List.length_append, padBits_length]
  omega

/-- Nothing of the stream is changed by what is put behind it. -/
theorem assembled_getD {i : Nat} (hi : i < S.length) : (padded (aligned (terminated S cap)) cap).getD i false = S.getD i false := by
  rw [padded, aligned, terminated, List.append_assoc, List.append_assoc, List.getD_append _ _ _ _ hi]

end

/-! ## The commands make it so -/

/-- From `s` command `i` succeeds with the stream `x` in `BB` and the segment list as it was. -/
def Streams (i : Instr) (s : State) (x : List Bool) (t : State) : Prop :=
  exec i s = .next t ∧ t.bb = x ∧ t.seg = s.seg ∧ t.response.code = 0

theorem streams_of_endWithBb {i : Instr} {s : State} {x : List Bool} (h : exec i s = endWithBb x s) :
    ∃ t, Streams i s x t :=
  ⟨_, h.trans (endWithBb_eq_next_done x s), rfl, rfl, rfl⟩

section
variable {ver : BitVec 8} {cap : BitVec 16} {s : State}

theorem exec_asCat_streams (h1 : 1 ≤ ver.toNat) (h40 : ver.toNat ≤ 40)
    (hfit : ∀ r ∈ s.seg, r.count < 2 ^ countWidth r.mode ver.toNat)
    (hlen : neededBits s.seg ver.toNat ≤ Config.bbMax) : ∃ t, Streams (.asCat ver) s (asCat s.seg ver.toNat) t := by
  refine streams_of_endWithBb ?_
  rw [exec_asCat_room h1 h40 hlen, (countsFit_iff _ _).mpr hfit, asCat_eq_flatMap_segmentBits]
  rfl

theorem exec_asAlign_streams (s : State) : ∃ t, Streams .asAlign s (aligned s.bb) t :=
  streams_of_endWithBb rfl

theorem exec_asPack_streams {n : Nat} (hlen : s.bb.length = 8 * n) (hn : n ≤ Config.cwMax) :
    ∃ t, Streams .asPack s s.bb t ∧ t.cw = packAll s.bb := by
  refine ⟨done (num (s.bb.length / 8)) { s with cw := packAll s.bb }, ⟨?_, rfl, rfl, rfl⟩, rfl⟩
  rw [exec_asPack, execAsPack_aligned (by omega) (by omega), ok_eq_next_done]
  rfl

variable (hcap : 8 * cap.toNat ≤ Config.bbMax) (hlen : s.bb.length ≤ 8 * cap.toNat)
include hcap hlen

theorem exec_asTerm_streams : ∃ t, Streams (.asTerm cap) s (terminated s.bb cap.toNat) t :=
  streams_of_endWithBb (exec_asTerm_fits hcap hlen)

theorem exec_asPad_streams (ha : s.bb.length % 8 = 0) : ∃ t, Streams (.asPad cap) s (padded s.bb cap.toNat) t :=
  streams_of_endWithBb (exec_asPad_fits hcap ha hlen)

end

/-- The run of the five commands leaves the codewords of the assembled stream and the segment list. -/
theorem runWords_assemble {ver : BitVec 8} {cap : BitVec 16} {s : State} (h1 : 1 ≤ ver.toNat) (h40 : ver.toNat ≤ 40)
    (hcw : cap.toNat ≤ Config.cwMax) (hcap : 8 * cap.toNat ≤ Config.bbMax)
    (hfit : ∀ r ∈ s.seg, r.count < 2 ^ countWidth r.mode ver.toNat)
    (hneed : (asCat s.seg ver.toNat).length ≤ 8 * cap.toNat) :
    let out := runWords ([Instr.asCat ver, .asTerm cap, .asAlign, .asPad cap, .asPack].map encode) s
    out.1.cw = packAll (assembledBits s.seg ver.toNat cap.toNat) ∧ out.1.seg = s.seg ∧ ∀ r ∈ out.2, r.code = 0 := by
  have hneeded : neededBits s.seg ver.toNat ≤ Config.bbMax := by
    rw [← segTotal_eq_neededBits, ← asCat_length]
    omega
  have hterm := terminated_length_le hneed
  have halign := aligned_length_le hterm
  have hmod := aligned_length_mod (terminated (asCat s.seg ver.toNat) cap.toNat)
  obtain ⟨t₁, e₁, b₁, s₁, c₁⟩ := exec_asCat_streams h1 h40 hfit hneeded
  obtain ⟨t₂, e₂, b₂, s₂, c₂⟩ := exec_asTerm_streams hcap (s := t₁) (b₁ ▸ hneed)
  obtain ⟨t₃, e₃, b₃, s₃, c₃⟩ := exec_asAlign_streams t₂
  rw [b₁] at b₂
  rw [b₂] at b₃
  obtain ⟨t₄, e₄, b₄, s₄, c₄⟩ := exec_asPad_streams hcap (s := t₃) (b₃ ▸ halign) (b₃ ▸ hmod)
  rw [b₃] at b₄
  obtain ⟨t₅, ⟨e₅, -, s₅, c₅⟩, w₅⟩ := exec_asPack_streams (s := t₄) (b₄ ▸ padded_length hmod halign) hcw
  simp only [List.map_cons, List.map_nil]
  rw [runWords_encode_cons e₁, runWords_encode_cons e₂, runWords_encode_cons e₃, runWords_encode_cons e₄,
    runWords_encode_cons e₅, runWords]
  refine ⟨w₅.trans (congrArg packAll b₄), by rw [s₅, s₄, s₃, s₂, s₁], ?_⟩
  simp only [List.forall_mem_cons]
  exact ⟨c₁, c₂, c₃, c₄, c₅, fun _ h => nomatch h⟩

/-- Settles O37: the commands append in turn what `assemble` appends at once, and packing keeps the bits in their places. -/
theorem assemblySequenceCompletes : Obligations.AssemblySequenceCompletes := by
  intro ver cap s h1 h40 hcw hcap hfit
  refine ⟨fun hneed => ?_, assemble_tooLong⟩
  have hcat : (asCat s.seg ver.toNat).length = neededBits s.seg ver.toNat :=
    (asCat_length ..).trans (segTotal_eq_neededBits ..)
  have hlen : (assembledBits s.seg ver.toNat cap.toNat).length = 8 * cap.toNat :=
    padded_length (aligned_length_mod _) (aligned_length_le (terminated_length_le (hcat ▸ hneed)))
  obtain ⟨hout, hseg, hcodes⟩ := runWords_assemble h1 h40 hcw hcap hfit (hcat ▸ hneed)
  refine ⟨(assemble_fits hneed).trans (congrArg some hout.symm), ?_, hseg, hcodes, fun i hi => ?_⟩
  · rw [hout, packAll_length, hlen, Nat.mul_div_cancel_left _ (by decide)]
  · have hbyte : i / 8 < (assembledBits s.seg ver.toNat cap.toNat).length / 8 := by omega
    rw [hout, packAll_getLsbD hbyte (Nat.mod_lt i (by decide)), Nat.div_add_mod, ← asCat_eq_flatMap_segmentBits]
    exact assembled_getD (hcat ▸ hi)

end Sys2Proof.Machine
end

section
/-! The error-correction bounds of the format and version codes (46_bch.md section 2): both codes are linear, their least
weights are 7 and 8, and the Hamming distance obeys the triangle inequality. -/

namespace Sys2Proof.Machine

open Sys2Proof.Claims

/-! ## Weights -/

/-- The weight of a sum is at most the sum of the weights. -/
theorem popcount_xor_le {n : Nat} (v w : BitVec n) : popcount (v ^^^ w) ≤ popcount v + popcount w := by
  have hcount (l : List Nat) : l.countP (v ^^^ w).getLsbD ≤ l.countP v.getLsbD + l.countP w.getLsbD := by
    induction l with
    | nil => exact Nat.zero_le _
    | cons i l ih =>
      simp only [List.countP_cons, BitVec.getLsbD_xor]
      cases v.getLsbD i <;> cases w.getLsbD i <;> simp <;> omega
  exact hcount _

/-! ## The codes are linear -/

theorem shiftStep_xor {d : Nat} (g r r' : BitVec (d + 2)) :
    shiftStep g (r ^^^ r') = shiftStep g r ^^^ shiftStep g r' := by
  simp only [shiftStep, BitVec.getLsbD_xor, BitVec.shiftLeft_xor_distrib]
  cases r.getLsbD d <;> cases r'.getLsbD d <;> simp [xor_xor_xor_cancel] <;> ac_rfl

theorem shiftStep_iterate_xor {d : Nat} (g r r' : BitVec (d + 2)) (n : Nat) :
    (shiftStep g)^[n] (r ^^^ r') = (shiftStep g)^[n] r ^^^ (shiftStep g)^[n] r' := by
  induction n with
  | zero => rfl
  | succ n ih => rw [Function.iterate_succ_apply', ih, shiftStep_xor, ← Function.iterate_succ_apply' (shiftStep g),
      ← Function.iterate_succ_apply' (shiftStep g)]

theorem fmtParity_xor (f g : BitVec 5) : fmtParity (f ^^^ g) = fmtParity f ^^^ fmtParity g := by
  simp only [fmtParity, fmtStep_eq_shiftStep, BitVec.setWidth_xor, shiftStep_iterate_xor]

theorem verParity_xor (v u : BitVec 6) : verParity (v ^^^ u) = verParity v ^^^ verParity u := by
  simp only [verParity, verStep_eq_shiftStep, BitVec.setWidth_xor, shiftStep_iterate_xor]

theorem append_xor_append {m n : Nat} (x a : BitVec m) (y b : BitVec n) :
    (x ++ y) ^^^ (a ++ b) = (x ^^^ a) ++ (y ^^^ b) := by
  ext j hj
  simp only [BitVec.getElem_xor, BitVec.getElem_append]
  split <;> rfl

/-- R222: the mask drops out of the difference of two format words. -/
theorem fmtEnc_xor_fmtEnc (f g : BitVec 5) : fmtEnc f ^^^ fmtEnc g = (f ^^^ g) ++ fmtParity (f ^^^ g) := by
  rw [fmtEnc, fmtEnc, xor_xor_xor_cancel, append_xor_append, fmtParity_xor]

theorem verEnc_xor_verEnc (v u : BitVec 6) : verEnc v ^^^ verEnc u = verEnc (v ^^^ u) := by
  rw [verEnc, verEnc, verEnc, append_xor_append, verParity_xor]

/-! ## The least weights of the codes -/

theorem fmt_weight : ∀ f : BitVec 5, f ≠ 0 → 7 ≤ popcount (f ++ fmtParity f) := by decide

theorem ver_weight : ∀ v : BitVec 6, v ≠ 0 → 8 ≤ popcount (verEnc v) := by decide +kernel

/-- A word at most 3 bits from one code word is more than 3 bits from any other, when code words differ in 7 bits or more. -/
theorem distance_lt_of_weight {n : Nat} {c c' e : BitVec n} (he : popcount e ≤ 3) (hd : 7 ≤ popcount (c ^^^ c')) :
    popcount (c ^^^ e ^^^ c) < popcount (c ^^^ e ^^^ c') := by
  have hself : c ^^^ e ^^^ c = e := by
    rw [BitVec.xor_comm c e, BitVec.xor_assoc, xor_self_word, xor_zero_word]
  have hsum : c ^^^ c' = c ^^^ e ^^^ c' ^^^ e := by
    rw [BitVec.xor_assoc _ c' e, BitVec.xor_comm c' e, ← BitVec.xor_assoc, BitVec.xor_assoc c e e, xor_self_word,
      xor_zero_word]
  have htri := popcount_xor_le (c ^^^ e ^^^ c') e
  rw [← hsum] at htri
  rw [hself]
  omega

/-! ## Three errors decode to the word sent (R223, R228) -/

theorem setWidth_toNat_lt (w : BitVec 15) : (w.setWidth 18).toNat < 2 ^ 15 := by
  rw [BitVec.toNat_setWidth_of_le (by decide)]
  exact w.isLt

theorem setWidth_setWidth_word (w : BitVec 15) : (w.setWidth 18).setWidth 15 = w := by
  rw [BitVec.setWidth_setWidth_of_le w (by decide), BitVec.setWidth_eq]

/-- Settles O41: the word sent is the unique nearest one, at distance at most 3. -/
theorem formatDecodeCorrectsThreeErrors : Obligations.FormatDecodeCorrectsThreeErrors := by
  intro f e s he
  have hself : fmtDistance ((fmtEnc f ^^^ e).setWidth 18) f ≤ 3 := by
    rw [fmtDistance, setWidth_setWidth_word, BitVec.xor_comm (fmtEnc f), BitVec.xor_assoc, xor_self_word, xor_zero_word]
    exact he
  refine exec_fmDec_match s (setWidth_toNat_lt _) ((fmtDec_eq_some_iff _ f).mpr ⟨by omega, fun g hg => ?_⟩)
  rw [fmtDistance, fmtDistance, setWidth_setWidth_word]
  refine distance_lt_of_weight he ?_
  rw [fmtEnc_xor_fmtEnc]
  exact fmt_weight _ fun h => hg (eq_of_xor_eq_zero_word h).symm

/-- Settles O44: the word sent is the unique nearest one among the 40, at distance at most 3. -/
theorem versionDecodeCorrectsThreeErrors : Obligations.VersionDecodeCorrectsThreeErrors := by
  intro v e s h1 h40 he
  have hself : verDistance (verEnc (BitVec.ofNat 6 v) ^^^ e) v ≤ 3 := by
    rw [verDistance, BitVec.xor_comm (verEnc _), BitVec.xor_assoc, xor_self_word, xor_zero_word]
    exact he
  refine exec_vrDec_match s ((verDec_eq_some_iff _ v).mpr ⟨h1, h40, by omega, fun u hu1 hu40 hu => ?_⟩)
  refine distance_lt_of_weight he ?_
  rw [verEnc_xor_verEnc]
  have hne : BitVec.ofNat 6 v ^^^ BitVec.ofNat 6 u ≠ 0 := by
    intro h
    have := congrArg BitVec.toNat (eq_of_xor_eq_zero_word h)
    rw [BitVec.toNat_ofNat, BitVec.toNat_ofNat] at this
    omega
  exact (Nat.le_succ 7).trans (ver_weight _ hne)

end Sys2Proof.Machine
end

section
/-! GF(2^4) inside an algebraically closed field of characteristic 2 (41_gf.md sections 2 and 3), so that the tables and loops of
the syndrome path are sums, products and polynomials of Mathlib; then the laws of the table product. -/

namespace Sys2Proof.Machine

open Sys2Proof.Claims

/-! ## The laws of the table product, over all 16 elements (R117, R118) -/

theorem gf4Mul_eq_gf4Ref : ∀ a b : Nibble, gf4Mul a b = gf4Ref a b := by decide

theorem exp4_log4 : ∀ a : Nibble, a ≠ 0 → exp4 (log4 a) = a := by decide

theorem log4_lt : ∀ a : Nibble, log4 a < 15 := by decide

theorem log4_exp4 : ∀ i < 15, log4 (exp4 i) = i := by decide

theorem exp4_succ : ∀ i < 15, exp4 (i + 1) = gf4Ref (exp4 i) 2 := by decide

/-! ## The field -/

/-- A field with room for GF(2^4). -/
abbrev BigField := AlgebraicClosure (ZMod 2)

theorem exists_pow_four_eq_add_one : ∃ a : BigField, a ^ 4 = a + 1 := by
  have hdeg : (Polynomial.X ^ 4 - Polynomial.X - 1 : Polynomial BigField).degree ≠ 0 := by
    have h : (Polynomial.X ^ 4 - Polynomial.X - 1 : Polynomial BigField).degree = 4 := by compute_degree!
    rw [h]
    decide
  obtain ⟨a, ha⟩ := IsAlgClosed.exists_root _ hdeg
  refine ⟨a, ?_⟩
  simp only [Polynomial.IsRoot, Polynomial.eval_sub, Polynomial.eval_pow, Polynomial.eval_X, Polynomial.eval_one] at ha
  linear_combination ha

/-- A root of `x^4 + x + 1` (R117). -/
noncomputable def alpha : BigField := exists_pow_four_eq_add_one.choose

theorem alpha_pow_four : alpha ^ 4 = alpha + 1 := exists_pow_four_eq_add_one.choose_spec

theorem alpha_ne_zero : alpha ≠ 0 := fun h => by simpa [h] using alpha_pow_four

theorem alpha_pow_fifteen : alpha ^ 15 = 1 := by
  linear_combination (alpha ^ 11 + alpha ^ 8 + alpha ^ 7 + alpha ^ 5 + alpha ^ 3 + alpha ^ 2 + alpha + 1) * alpha_pow_four +
    (alpha ^ 8 + alpha ^ 3 + alpha ^ 2 + alpha) * CharTwo.two_eq_zero (R := BigField)

/-! ## The embedding of GF(2^4) -/

/-- A bit as an element of the field. -/
noncomputable def bitVal (b : Bool) : BigField := if b then 1 else 0

theorem bitVal_xor (b c : Bool) : bitVal (b ^^ c) = bitVal b + bitVal c := by
  cases b <;> cases c <;> simp [bitVal, CharTwo.add_self_eq_zero]

theorem bitVal_sq (b : Bool) : bitVal b ^ 2 = bitVal b := by
  cases b <;> simp [bitVal]

theorem bitVal_eq_zero_iff (b : Bool) : bitVal b = 0 ↔ b = false := by
  cases b <;> simp [bitVal]

/-- The element of the field that a nibble stands for: bit `i` is the coefficient of `α^i` (R117). -/
noncomputable def emb (a : Nibble) : BigField := ∑ i ∈ Finset.range 4, bitVal (a.getLsbD i) * alpha ^ i

theorem emb_xor (a b : Nibble) : emb (a ^^^ b) = emb a + emb b := by
  simp only [emb, BitVec.getLsbD_xor, bitVal_xor, add_mul, Finset.sum_add_distrib]

theorem emb_zero : emb 0 = 0 := by simp [emb, bitVal]

theorem emb_one : emb 1 = 1 := by simp [emb, bitVal]

/-! ## Powers of `α` -/

theorem gf4Ref_two : ∀ a : Nibble, gf4Ref a 2 = (a <<< 1) ^^^ if a.getLsbD 3 then 3 else 0 := by decide

/-- R117: doubling is multiplication by `α`, with `α^4 = α + 1` for the bit shifted out. -/
theorem emb_gf4Ref_two (a : Nibble) : emb (gf4Ref a 2) = emb a * alpha := by
  have hshift : emb (a <<< 1) =
      bitVal (a.getLsbD 0) * alpha + bitVal (a.getLsbD 1) * alpha ^ 2 + bitVal (a.getLsbD 2) * alpha ^ 3 := by
    simp [emb, Finset.sum_range_succ, bitVal]
  have hcarry : emb (if a.getLsbD 3 then 3 else 0) = bitVal (a.getLsbD 3) * (alpha + 1) := by
    cases a.getLsbD 3 <;> simp [emb, Finset.sum_range_succ, bitVal, add_comm]
  rw [gf4Ref_two, emb_xor, hshift, hcarry, emb, ← alpha_pow_four]
  simp only [Finset.sum_range_succ, Finset.sum_range_zero]
  ring

theorem emb_exp4 {i : Nat} (hi : i ≤ 15) : emb (exp4 i) = alpha ^ i := by
  induction i with
  | zero => exact emb_one.trans (pow_zero alpha).symm
  | succ i ih => rw [exp4_succ i hi, emb_gf4Ref_two, ih (by omega), pow_succ]

theorem alpha_pow_mod (n : Nat) : alpha ^ (n % 15) = alpha ^ n :=
  (pow_eq_pow_mod n alpha_pow_fifteen).symm

theorem emb_exp4_mod (n : Nat) : emb (exp4 (n % 15)) = alpha ^ n := by
  rw [emb_exp4 (Nat.mod_lt n (by decide)).le, alpha_pow_mod]

theorem emb_eq_pow_log4 {a : Nibble} (ha : a ≠ 0) : emb a = alpha ^ log4 a := by
  rw [← emb_exp4 (log4_lt a).le, exp4_log4 a ha]

theorem emb_eq_zero_iff (a : Nibble) : emb a = 0 ↔ a = 0 := by
  refine ⟨fun h => by_contra fun ha => ?_, fun h => h ▸ emb_zero⟩
  rw [emb_eq_pow_log4 ha] at h
  exact pow_ne_zero _ alpha_ne_zero h

theorem emb_injective : Function.Injective emb := by
  intro a b h
  refine eq_of_xor_eq_zero_word ((emb_eq_zero_iff _).mp ?_)
  rw [emb_xor, h, CharTwo.add_self_eq_zero]

/-- R234: the product through the tables is the product of the field. -/
theorem emb_mulF (a b : Nibble) : emb (mulF gf16 a b) = emb a * emb b := by
  rw [mulF]
  split
  next h =>
    obtain rfl | rfl := h
    · rw [emb_zero, zero_mul]
    · rw [emb_zero, mul_zero]
  next h =>
    obtain ⟨ha, hb⟩ := not_or.mp h
    rw [emb_eq_pow_log4 ha, emb_eq_pow_log4 hb, ← pow_add]
    exact emb_exp4_mod _

theorem emb_gf4Ref (a b : Nibble) : emb (gf4Ref a b) = emb a * emb b := by
  rw [← gf4Mul_eq_gf4Ref, gf4Mul, emb_mulF]

theorem emb_pow4 (i : Nat) : emb (pow4 i) = alpha ^ i := by
  induction i with
  | zero => exact emb_one.trans (pow_zero alpha).symm
  | succ i ih => rw [pow4, Function.iterate_succ_apply', ← pow4, emb_gf4Ref_two, ih, pow_succ]

/-- The first fifteen powers of `α` are distinct. -/
theorem alpha_pow_injOn : Set.InjOn (alpha ^ ·) (Set.Iio 15 : Set Nat) := by
  intro i hi j hj h
  have hi : i < 15 := hi
  have hj : j < 15 := hj
  have h : alpha ^ i = alpha ^ j := h
  rw [← emb_exp4 hi.le, ← emb_exp4 hj.le] at h
  rw [← log4_exp4 i hi, ← log4_exp4 j hj, emb_injective h]

/-- Settles O13: the two tables and products compared over all elements, and the laws of the field. -/
theorem gf4TablesAndFieldLaws : Obligations.Gf4TablesAndFieldLaws := by
  have hmul (a b : Nibble) : emb (gf4Mul a b) = emb a * emb b := emb_mulF a b
  refine ⟨gf4Mul_eq_gf4Ref, fun i hi => ?_, fun a b => emb_injective ?_, fun a b c => emb_injective ?_,
    fun a b c => emb_injective ?_, fun a => ⟨emb_injective ?_, emb_injective ?_⟩, fun a ha => emb_injective ?_⟩
  · exact emb_injective ((emb_exp4 (by omega)).trans (emb_pow4 i).symm)
  · rw [hmul, hmul, mul_comm]
  · rw [hmul, hmul, hmul, hmul, mul_assoc]
  · rw [hmul, emb_xor, emb_xor, hmul, hmul, mul_add]
  · rw [hmul, emb_one, mul_one]
  · rw [hmul, emb_zero, mul_zero]
  · rw [hmul, emb_exp4_mod, emb_eq_pow_log4 ha, ← pow_add, Nat.add_sub_cancel' (log4_lt a).le, alpha_pow_fifteen, emb_one]

end Sys2Proof.Machine
end

section
/-! The polynomials of the syndrome path as Mathlib's (46_bch.md R233, R236, R237): values by Horner's scheme and by the tables,
and the syndromes as values of the word's polynomial. -/

namespace Sys2Proof.Machine

open Sys2Proof.Claims Polynomial

/-! ## Coefficient lists (R236) -/

/-- The polynomial of a coefficient list, lowest power first. -/
noncomputable def toPoly : List Nibble → BigField[X]
  | [] => 0
  | c :: p => C (emb c) + X * toPoly p

theorem toPoly_coeff (p : List Nibble) (i : Nat) : (toPoly p).coeff i = emb (p.getD i 0) := by
  induction p generalizing i with
  | nil => rw [toPoly, coeff_zero, List.getD_nil, emb_zero]
  | cons c p ih =>
    cases i with
    | zero => simp [toPoly]
    | succ i => rw [toPoly, coeff_add, coeff_C_succ, zero_add, coeff_X_mul, ih, List.getD_cons_succ]

theorem toPoly_eval_cons (c : Nibble) (p : List Nibble) (x : BigField) :
    (toPoly (c :: p)).eval x = emb c + x * (toPoly p).eval x := by
  rw [toPoly, eval_add, eval_C, eval_mul, eval_X]

theorem toPoly_eval_eq_sum (p : List Nibble) (x : BigField) :
    (toPoly p).eval x = ∑ i ∈ Finset.range p.length, emb (p.getD i 0) * x ^ i := by
  induction p with
  | nil => rw [toPoly, eval_zero, List.length_nil, Finset.sum_range_zero]
  | cons c p ih =>
    rw [toPoly_eval_cons, ih, List.length_cons, Finset.sum_range_succ', Finset.mul_sum, add_comm]
    simp only [List.getD_cons_succ, List.getD_cons_zero, pow_zero, mul_one, pow_succ]
    congr 1
    exact Finset.sum_congr rfl fun i _ => by ring

/-! ## Horner's scheme and the tables evaluate alike (R237) -/

theorem emb_horner4 (p : List Nibble) (x : Nibble) : emb (horner4 p x) = (toPoly p).eval (emb x) := by
  induction p with
  | nil => rw [toPoly, eval_zero]; exact emb_zero
  | cons c p ih =>
    have hcons : horner4 (c :: p) x = gf4Ref (horner4 p x) x ^^^ c := rfl
    rw [hcons, emb_xor, emb_gf4Ref, ih, toPoly_eval_cons, mul_comm, add_comm]

/-- R237: one term through the tables. -/
theorem emb_polyTerm {x : Nibble} (hx : x ≠ 0) (c : Nibble) (i : Nat) :
    emb (polyTerm gf16 x c i) = emb c * emb x ^ i := by
  rw [polyTerm]
  split
  next h => rw [h, emb_zero, zero_mul]
  next h =>
    rw [emb_eq_pow_log4 h, emb_eq_pow_log4 hx, ← pow_mul, ← pow_add]
    exact emb_exp4_mod _

theorem emb_foldl_polyTerm {x : Nibble} (hx : x ≠ 0) (p : List Nibble) (k : Nat) (sum : Nibble) :
    emb ((p.zipIdx k).foldl (fun sum ci => sum ^^^ polyTerm gf16 x ci.1 ci.2) sum) =
      emb sum + emb x ^ k * (toPoly p).eval (emb x) := by
  induction p generalizing k sum with
  | nil => rw [toPoly, eval_zero, mul_zero, add_zero]; rfl
  | cons c p ih =>
    rw [List.zipIdx_cons, List.foldl_cons, ih, emb_xor, emb_polyTerm hx, toPoly_eval_cons, pow_succ]
    ring

theorem emb_polyEval (p : List Nibble) (x : Nibble) : emb (polyEval gf16 p x) = (toPoly p).eval (emb x) := by
  rw [polyEval]
  split
  next h =>
    rw [h, emb_zero, ← coeff_zero_eq_eval_zero, toPoly_coeff]
    cases p <;> rfl
  next h => rw [emb_foldl_polyTerm h, emb_zero, pow_zero, one_mul, zero_add]

theorem polyEval_eq_horner4 (p : List Nibble) (x : Nibble) : polyEval gf16 p x = horner4 p x :=
  emb_injective ((emb_polyEval p x).trans (emb_horner4 p x).symm)

/-! ## `SY.RD`, `LC.RD`, `LC.EVAL` (R243 to R245) -/

theorem readAt_zext {n : Nat} {buf : List (BitVec n)} {i : Nat} (hi : i < buf.length) (s : State) :
    readAt buf i zext s = .next (done (num (buf.getD i 0).toNat) s) := by
  rw [readAt_of_getElem? (List.getElem?_eq_getElem hi), ok_eq_next_done, zext_eq_num, List.getD_eq_getElem _ 0 hi]

/-- Settles O50: an index below the array's length is read and a larger one refused, and the tables agree with Horner. -/
theorem syndromePathReadsComplete : Obligations.SyndromePathReadsComplete := by
  intro s
  refine ⟨fun i => ?_, fun i => ?_, fun x => ?_⟩
  · split_ifs with h
    · exact exec_syRd_large s h
    · rw [exec, execSyRd, if_neg h, readAt_zext (by rw [Vector.length_toList]; omega)]
  · split_ifs with h
    · exact exec_lcRd_large s h
    · rw [exec, execLcRd, if_neg h, readAt_zext (by rw [Vector.length_toList]; omega)]
  · split_ifs with h
    · exact exec_lcEval_large s h
    · rw [exec, execLcEval, if_neg h, polyEval_eq_horner4, ok_eq_next_done, zext_eq_num]

/-! ## Syndromes (R233) -/

/-- The value at `x` of the polynomial of a word. -/
noncomputable def wordEval (u : BitVec 15) (x : BigField) : BigField :=
  ∑ j ∈ Finset.range 15, bitVal (u.getLsbD j) * x ^ j

theorem wordEval_xor (u v : BitVec 15) (x : BigField) : wordEval (u ^^^ v) x = wordEval u x + wordEval v x := by
  simp only [wordEval, BitVec.getLsbD_xor, bitVal_xor, add_mul, Finset.sum_add_distrib]

/-- In characteristic 2 squaring is additive, and bits are their own squares. -/
theorem wordEval_sq (u : BitVec 15) (x : BigField) : wordEval u (x ^ 2) = wordEval u x ^ 2 := by
  rw [wordEval, wordEval, CharTwo.sum_sq]
  refine Finset.sum_congr rfl fun j _ => ?_
  rw [mul_pow, bitVal_sq, ← pow_mul, ← pow_mul, mul_comm 2]

theorem emb_foldl_syndrome (u : BitVec 15) (k n : Nat) :
    emb ((List.range n).foldl (fun s j => if u.getLsbD j then s ^^^ exp4 (k * j % 15) else s) 0) =
      ∑ j ∈ Finset.range n, bitVal (u.getLsbD j) * (alpha ^ k) ^ j := by
  induction n with
  | zero => exact emb_zero
  | succ n ih =>
    rw [List.range_succ, List.foldl_concat, Finset.sum_range_succ, ← ih, bitVal]
    split
    · rw [emb_xor, emb_exp4_mod, one_mul, pow_mul]
    · rw [zero_mul, add_zero]

theorem emb_syndrome (u : BitVec 15) (k : Nat) : emb (syndrome u k) = wordEval u (alpha ^ k) :=
  emb_foldl_syndrome u k 15

theorem fmtSyn_getD (u : BitVec 15) {i : Nat} (hi : i < 6) : (fmtSyn u).toList.getD i 0 = syndrome u (i + 1) := by
  match i with
  | 0 | 1 | 2 | 3 | 4 | 5 => rfl

theorem toPoly_wordPoly_eval (u : BitVec 15) (x : BigField) : (toPoly (wordPoly u)).eval x = wordEval u x := by
  have hlen : (wordPoly u).length = 15 := by rw [wordPoly, List.length_map, List.length_range]
  rw [toPoly_eval_eq_sum, hlen, wordEval]
  refine Finset.sum_congr rfl fun j hj => ?_
  have hj : j < (wordPoly u).length := hlen ▸ Finset.mem_range.mp hj
  have hcoeff : (wordPoly u).getD j 0 = if u.getLsbD j then 1 else 0 := by
    rw [List.getD_eq_getElem _ 0 hj]
    simp [wordPoly]
  rw [hcoeff, bitVal]
  split
  · rw [emb_one]
  · rw [emb_zero]

theorem syndrome_eq_horner4 (u : BitVec 15) (k : Nat) : syndrome u k = horner4 (wordPoly u) (pow4 k) := by
  refine emb_injective ?_
  rw [emb_syndrome, emb_horner4, emb_pow4, toPoly_wordPoly_eval]

theorem exec_fmSyn_small {u : BitVec 18} (s : State) (h : u.toNat < 2 ^ 15) :
    exec (.fmSyn u) s = .next (done (bitWord (synNonzero (fmtSyn (u.setWidth 15))))
      { s with syn := fmtSyn (u.setWidth 15) }) := by
  rw [exec, execFmSyn, if_neg (Nat.not_le.mpr h), ok_eq_next_done]
  rfl

theorem synNonzero_eq_false_iff (S : Vector Nibble 6) : synNonzero S = false ↔ ∀ x ∈ S.toList, x = 0 := by
  simp only [synNonzero, List.any_eq_false, decide_eq_true_eq, not_not]

/-- Settles O45: each syndrome is the value of the word's polynomial, by the tables and by Horner alike. -/
theorem syndromeCommandCompletes : Obligations.SyndromeCommandCompletes := by
  intro u s
  refine ⟨fun h => ⟨fmtSyn (u.setWidth 15), fun i hi => ?_, ?_⟩, exec_fmSyn_large s⟩
  · rw [fmtSyn_getD _ hi, syndrome_eq_horner4]
  · have hres : bitWord (synNonzero (fmtSyn (u.setWidth 15))) =
        if ∀ x ∈ (fmtSyn (u.setWidth 15)).toList, x = 0 then 0 else 1 := by
      simp only [← synNonzero_eq_false_iff]
      cases synNonzero (fmtSyn (u.setWidth 15)) <;> rfl
    rw [exec_fmSyn_small s h, hres]

end Sys2Proof.Machine
end

section
/-! Membership in the format code by the syndromes (46_bch.md R233), and what the correction loop and `FM.COR` answer (R235,
R239, R242). -/

namespace Sys2Proof.Machine

open Sys2Proof.Claims Polynomial

/-! ## The syndromes of a code word vanish -/

theorem fmtSyn_toList (u : BitVec 15) : (fmtSyn u).toList = (List.range 6).map fun i => syndrome u (i + 1) := rfl

theorem fmtSyn_eq_zero_iff (u : BitVec 15) :
    (∀ x ∈ (fmtSyn u).toList, x = 0) ↔ ∀ k, 1 ≤ k → k ≤ 6 → wordEval u (alpha ^ k) = 0 := by
  simp only [fmtSyn_toList, List.forall_mem_map, List.mem_range, ← emb_syndrome, emb_eq_zero_iff]
  refine ⟨fun h k h1 h6 => ?_, fun h i hi => h (i + 1) (by omega) (by omega)⟩
  have hk := h (k - 1) (by omega)
  rwa [Nat.sub_add_cancel h1] at hk

theorem fmtEnc_unmasked (f : BitVec 5) : fmtEnc f ^^^ fmtMask = f ++ fmtParity f := by
  rw [fmtEnc, BitVec.xor_assoc, xor_self_word, xor_zero_word]

/-- R220: the roots of the generator 0x537 are among the powers of `α`. -/
theorem fmtSyn_codeword : ∀ f : BitVec 5, ∀ x ∈ (fmtSyn (f ++ fmtParity f)).toList, x = 0 := by decide +kernel

/-! ## A word whose syndromes vanish is a code word -/

theorem wordPoly_getD (u : BitVec 15) (j : Nat) : (wordPoly u).getD j 0 = if u.getLsbD j then 1 else 0 := by
  by_cases hj : j < 15
  · have hlen : j < (wordPoly u).length := by rwa [wordPoly, List.length_map, List.length_range]
    rw [List.getD_eq_getElem _ 0 hlen]
    simp [wordPoly]
  · have hlen : (wordPoly u).length ≤ j := by rw [wordPoly, List.length_map, List.length_range]; omega
    rw [List.getD_eq_default _ _ hlen, BitVec.getLsbD_of_ge u j (by omega)]
    rfl

theorem toPoly_wordPoly_coeff (u : BitVec 15) (j : Nat) : (toPoly (wordPoly u)).coeff j = bitVal (u.getLsbD j) := by
  rw [toPoly_coeff, wordPoly_getD, bitVal]
  split
  · exact emb_one
  · exact emb_zero

/-- The exponents of the conjugates of `α`, `α^3` and `α^5`: the ten roots of the generator 0x537. -/
def rootExponents : Finset Nat := {1, 2, 3, 4, 5, 6, 8, 9, 10, 12}

/-- The vanishing at the first six powers of `α` spreads to the conjugates by squaring. -/
theorem wordEval_eq_zero_of_mem {u : BitVec 15} (h : ∀ k, 1 ≤ k → k ≤ 6 → wordEval u (alpha ^ k) = 0) :
    ∀ k ∈ rootExponents, wordEval u (alpha ^ k) = 0 := by
  have double {k l : Nat} (hl : k * 2 % 15 = l) (hk : wordEval u (alpha ^ k) = 0) : wordEval u (alpha ^ l) = 0 := by
    rw [← hl, alpha_pow_mod, pow_mul, wordEval_sq, hk, zero_pow two_ne_zero]
  have h8 := double (l := 8) rfl (h 4 (by decide) (by decide))
  have h10 := double (l := 10) rfl (h 5 (by decide) (by decide))
  have h12 := double (l := 12) rfl (h 6 (by decide) (by decide))
  have h9 := double (l := 9) rfl h12
  intro k hk
  by_cases h6 : k ≤ 6
  · exact h k (Nat.pos_of_ne_zero fun h0 => absurd hk (h0 ▸ by decide)) h6
  · have hrest : k = 8 ∨ k = 9 ∨ k = 10 ∨ k = 12 := by
      simp only [rootExponents, Finset.mem_insert, Finset.mem_singleton] at hk
      omega
    obtain rfl | rfl | rfl | rfl := hrest
    · exact h8
    · exact h9
    · exact h10
    · exact h12

/-- A polynomial of degree at most 9 with ten roots is 0. -/
theorem eq_zero_of_wordEval_eq_zero {p : BitVec 15} (hhigh : ∀ j, 10 ≤ j → p.getLsbD j = false)
    (h : ∀ k, 1 ≤ k → k ≤ 6 → wordEval p (alpha ^ k) = 0) : p = 0 := by
  classical
  have hdegree : (toPoly (wordPoly p)).natDegree ≤ 9 := by
    refine natDegree_le_iff_coeff_eq_zero.mpr fun j hj => ?_
    rw [toPoly_wordPoly_coeff, hhigh j hj]
    rfl
  have hinj : Set.InjOn (alpha ^ ·) (rootExponents : Set Nat) :=
    alpha_pow_injOn.mono fun k hk => (by decide : ∀ k ∈ rootExponents, k < 15) k hk
  have hcard : (rootExponents.image (alpha ^ ·)).card = 10 := Finset.card_image_of_injOn hinj
  have hzero : toPoly (wordPoly p) = 0 := by
    refine eq_zero_of_natDegree_lt_card_of_eval_eq_zero' _ (rootExponents.image (alpha ^ ·)) ?_ (by omega)
    refine Finset.forall_mem_image.mpr fun k hk => ?_
    rw [toPoly_wordPoly_eval]
    exact wordEval_eq_zero_of_mem h k hk
  refine BitVec.eq_of_getLsbD_eq fun j _ => ?_
  have hbit := toPoly_wordPoly_coeff p j
  rw [hzero, coeff_zero] at hbit
  rw [(bitVal_eq_zero_iff _).mp hbit.symm]
  exact BitVec.getLsbD_zero.symm

/-- The upper five bits of a word stand in their places in the word of their own data. -/
theorem data_append_getLsbD (u : BitVec 15) (p : BitVec 10) {j : Nat} (hj : 10 ≤ j) :
    (u.extractLsb' 10 5 ++ p).getLsbD j = u.getLsbD j := by
  have hpos : 10 + (j - 10) = j := by omega
  rw [BitVec.getLsbD_append, if_neg (by omega), BitVec.getLsbD_extractLsb', hpos]
  by_cases h15 : j < 15
  · rw [decide_eq_true (by omega), Bool.true_and]
  · rw [BitVec.getLsbD_of_ge u j (by omega), Bool.and_false]

/-- Settles O46: the word of the upper five bits has the same data, so the difference is a polynomial of degree at most 9. -/
theorem syndromesVanishExactlyOnCodewords : Obligations.SyndromesVanishExactlyOnCodewords := by
  intro u
  constructor
  · intro h
    refine ⟨u.extractLsb' 10 5, eq_of_xor_eq_zero_word ?_⟩
    have hword : fmtEnc (u.extractLsb' 10 5) ^^^ 0x5412 = u.extractLsb' 10 5 ++ fmtParity (u.extractLsb' 10 5) :=
      fmtEnc_unmasked _
    rw [hword]
    refine eq_zero_of_wordEval_eq_zero (fun j hj => ?_) fun k h1 h6 => ?_
    · rw [BitVec.getLsbD_xor, data_append_getLsbD u _ hj, Bool.xor_self]
    · rw [wordEval_xor, (fmtSyn_eq_zero_iff u).mp h k h1 h6, (fmtSyn_eq_zero_iff _).mp (fmtSyn_codeword _) k h1 h6,
        add_zero]
  · rintro ⟨f, rfl⟩
    exact (fmtEnc_unmasked f).symm ▸ fmtSyn_codeword f

/-! ## The correction loop (R235, R239) -/

theorem one_shiftLeft_getLsbD {n i : Nat} (j : Nat) (hi : i < n) : (1#n <<< j).getLsbD i = decide (j = i) := by
  rw [BitVec.getLsbD_shiftLeft, BitVec.getLsbD_one, decide_eq_true hi, decide_eq_true (Nat.zero_lt_of_lt hi)]
  simp only [Bool.true_and, ← decide_not, ← Bool.decide_and]
  exact decide_eq_decide.mpr (by omega)

/-- The loop flips the bits at which the locator vanishes, and no others. -/
theorem flipRoots_getLsbD (sigma : Poly 4) (u : BitVec 15) {i : Nat} (hi : i < 15) :
    (flipRoots sigma u).getLsbD i = (u.getLsbD i ^^ decide (polyEval gf16 sigma (exp4 (15 - i)) = 0)) := by
  have hloop (n : Nat) :
      ((List.range n).foldl
        (fun u' i => if polyEval gf16 sigma (exp4 (15 - i)) = 0 then u' ^^^ (1#15 <<< i) else u') u).getLsbD i =
        (u.getLsbD i ^^ (decide (i < n) && decide (polyEval gf16 sigma (exp4 (15 - i)) = 0))) := by
    induction n with
    | zero => simp
    | succ n ih =>
      rw [List.range_succ, List.foldl_concat]
      by_cases hni : n = i
      · subst hni
        have hbefore : decide (n < n) = false := decide_eq_false (lt_irrefl n)
        rw [hbefore, Bool.false_and, Bool.xor_false] at ih
        rw [decide_eq_true (Nat.lt_succ_self n), Bool.true_and]
        split
        next h => rw [BitVec.getLsbD_xor, ih, one_shiftLeft_getLsbD n hi, decide_eq_true rfl, decide_eq_true h]
        next h => rw [ih, decide_eq_false h, Bool.xor_false]
      · have hlt : i < n + 1 ↔ i < n := by omega
        simp only [hlt]
        split
        next => rw [BitVec.getLsbD_xor, ih, one_shiftLeft_getLsbD n hi, decide_eq_false hni, Bool.xor_false]
        next => exact ih
  rw [flipRoots, hloop, decide_eq_true hi, Bool.true_and]

/-! ## The polynomial arrays keep their length (R236, R238) -/

theorem polyAdd_length {w : Nat} (F : FieldRec w) {dst src : Poly w} (h : src.length = dst.length) (c : BitVec w)
    (shift : Nat) : (polyAdd F dst src c shift).length = dst.length := by
  rw [polyAdd]
  split
  next => rfl
  next =>
    rw [List.length_zipWith, List.length_append, List.length_replicate]
    omega

section
variable {w : Nat} {F : FieldRec w} {s : List (BitVec w)} {t : BmState w} {n : Nat}

theorem bmStep_of_zero (h : bmDiscrepancy F s t n = 0) : bmStep F s t n = { t with m := t.m + 1 } :=
  if_pos h

/-- The factor of the correction: the discrepancy over that of the last length change. -/
def bmFactor (F : FieldRec w) (s : List (BitVec w)) (t : BmState w) (n : Nat) : BitVec w :=
  F.exp ((F.p - F.log t.b + F.log (bmDiscrepancy F s t n)) % F.p)

theorem bmStep_of_change (h : bmDiscrepancy F s t n ≠ 0) (hL : 2 * t.L ≤ n) :
    bmStep F s t n =
      { C := polyAdd F t.C t.B (bmFactor F s t n) t.m
        B := t.C
        L := n + 1 - t.L
        m := 1
        b := bmDiscrepancy F s t n } :=
  (if_neg h).trans (if_pos hL)

theorem bmStep_of_keep (h : bmDiscrepancy F s t n ≠ 0) (hL : ¬ 2 * t.L ≤ n) :
    bmStep F s t n = { t with C := polyAdd F t.C t.B (bmFactor F s t n) t.m, m := t.m + 1 } :=
  (if_neg h).trans (if_neg hL)

theorem bmStep_lengths (h : t.C.length = Config.maxPoly ∧ t.B.length = Config.maxPoly) :
    (bmStep F s t n).C.length = Config.maxPoly ∧ (bmStep F s t n).B.length = Config.maxPoly := by
  obtain ⟨hC, hB⟩ := h
  have hadd := (polyAdd_length F (hB.trans hC.symm) (bmFactor F s t n) t.m).trans hC
  by_cases hd : bmDiscrepancy F s t n = 0
  · rw [bmStep_of_zero hd]
    exact ⟨hC, hB⟩
  by_cases hL : 2 * t.L ≤ n
  · rw [bmStep_of_change hd hL]
    exact ⟨hadd, hC⟩
  · rw [bmStep_of_keep hd hL]
    exact ⟨hadd, hB⟩

end

/-- The variables of `berlekampMassey` before its first step (R238). -/
def bmStart : BmState 4 := { C := polyOne, B := polyOne, L := 0, m := 1, b := 1 }

/-- The variables of `berlekampMassey` after `n` steps. -/
def bmRun (s : List Nibble) (n : Nat) : BmState 4 := (List.range n).foldl (bmStep gf16 s) bmStart

theorem bmRun_succ (s : List Nibble) (n : Nat) : bmRun s (n + 1) = bmStep gf16 s (bmRun s n) n := by
  rw [bmRun, List.range_succ, List.foldl_concat, ← bmRun]

theorem polyOne_length {w : Nat} : (polyOne : Poly w).length = Config.maxPoly := by
  rw [polyOne, List.length_cons, List.length_replicate]
  exact Nat.sub_add_cancel ((by decide : 1 ≤ 7).trans Config.maxPoly_ge)

theorem bmRun_lengths (s : List Nibble) (n : Nat) :
    (bmRun s n).C.length = Config.maxPoly ∧ (bmRun s n).B.length = Config.maxPoly := by
  induction n with
  | zero => exact ⟨polyOne_length, polyOne_length⟩
  | succ n ih =>
    rw [bmRun_succ]
    exact bmStep_lengths ih

/-! ## `FM.COR` (R239, R242) -/

/-- The locator that `fmtCor` computes for an unmasked word. -/
def locatorOf (u : BitVec 15) : Poly 4 := berlekampMassey gf16 (fmtSyn u).toList 6

theorem locatorOf_eq_bmRun (u : BitVec 15) : locatorOf u = (bmRun (fmtSyn u).toList 6).C := rfl

theorem locatorArray_toList {p : Poly 4} (h : p.length = Config.maxPoly) : (locatorArray p).toList = p := by
  refine List.ext_getElem ((Vector.length_toList).trans h.symm) fun i hi hp => ?_
  simp [locatorArray, hp]

theorem locatorArray_locatorOf_toList (u : BitVec 15) : (locatorArray (locatorOf u)).toList = locatorOf u :=
  locatorArray_toList (bmRun_lengths _ 6).1

section
variable {w : BitVec 15}

theorem fmtCor_corrected (h : ∀ x ∈ (fmtSyn (flipRoots (locatorOf (w ^^^ fmtMask)) (w ^^^ fmtMask))).toList, x = 0) :
    fmtCor w = some (flipRoots (locatorOf (w ^^^ fmtMask)) (w ^^^ fmtMask), fmtSyn (w ^^^ fmtMask),
      locatorOf (w ^^^ fmtMask)) :=
  if_neg (Bool.eq_false_iff.mp ((synNonzero_eq_false_iff _).mpr h))

theorem fmtCor_uncorrected
    (h : ¬ ∀ x ∈ (fmtSyn (flipRoots (locatorOf (w ^^^ fmtMask)) (w ^^^ fmtMask))).toList, x = 0) : fmtCor w = none :=
  if_pos (Bool.eq_true_of_not_eq_false fun hz => h ((synNonzero_eq_false_iff _).mp hz))

end

section
variable {w : BitVec 18} (s : State) (hw : w.toNat < 2 ^ 15)
include hw

theorem exec_fmCor_some {u' : BitVec 15} {syn : Vector Nibble 6} {sigma : Poly 4}
    (h : fmtCor (w.setWidth 15) = some (u', syn, sigma)) :
    exec (.fmCor w) s = .next (done (num u'.toNat) { s with syn := syn, sigma := locatorArray sigma }) := by
  rw [exec, execFmCor, if_neg (Nat.not_le.mpr hw), h, ← zext_eq_num]
  rfl

theorem exec_fmCor_none (h : fmtCor (w.setWidth 15) = none) : exec (.fmCor w) s = .next (failed .formatEcc s) := by
  rw [exec, execFmCor, if_neg (Nat.not_le.mpr hw), h]
  rfl

end

theorem xor_decide_ne_iff (b : Bool) (p : Prop) [Decidable p] : (b ^^ decide p) ≠ b ↔ p := by
  cases b <;> simp

/-- Settles O48: the loop flips the bits at the locator's roots, and the last test is on the word it leaves. -/
theorem formatCorrectionOutcomes : Obligations.FormatCorrectionOutcomes := by
  intro w s
  refine ⟨fun hw => ?_, exec_fmCor_large s⟩
  by_cases h : ∀ x ∈ (fmtSyn (flipRoots (locatorOf (w.setWidth 15 ^^^ fmtMask)) (w.setWidth 15 ^^^ fmtMask))).toList, x = 0
  · refine .inr ⟨_, _, exec_fmCor_some s hw (fmtCor_corrected h), h, fun i hi => ?_⟩
    rw [locatorArray_locatorOf_toList, flipRoots_getLsbD _ _ hi, polyEval_eq_horner4]
    exact xor_decide_ne_iff _ _
  · exact .inl (exec_fmCor_none s hw (fmtCor_uncorrected h))

end Sys2Proof.Machine
end

section
/-! The Berlekamp-Massey loop over a field (46_bch.md R238): what its variables stand for, said of polynomials. With `S` the
polynomial `1 + S(1) x + S(2) x^2 + …`, a connection polynomial `c` of length `L` fits the first `n` syndromes when the
coefficients of `c S` at `L + 1, …, n` are 0, and its discrepancy is the coefficient at `n + 1`. -/

namespace Sys2Proof.Machine

open Polynomial

section
variable {K : Type} [Field K] {S c b : K[X]} {n L : Nat} {β : K}

/-- What holds of the loop's variables after `n` syndromes: `c` is the locator, `b` the locator at the last length change shifted
by the steps since then, `β` the discrepancy there. -/
structure Massey (S c b : K[X]) (n L : Nat) (β : K) : Prop where
  length_le : L ≤ n
  coeff_zero : c.coeff 0 = 1
  natDegree_le : c.natDegree ≤ L
  fits : ∀ k, L < k → k ≤ n → (c * S).coeff k = 0
  old_coeff_zero : b.coeff 0 = 0
  old_natDegree_le : b.natDegree ≤ n + 1 - L
  old_fits : ∀ k, n + 1 - L < k → k ≤ n → (b * S).coeff k = 0
  old_discrepancy : (b * S).coeff (n + 1) = β
  old_ne_zero : β ≠ 0

theorem massey_start (hS : S.coeff 0 = 1) : Massey S 1 X 0 0 1 where
  length_le := le_rfl
  coeff_zero := coeff_one_zero
  natDegree_le := natDegree_one.le
  fits k h1 h2 := by omega
  old_coeff_zero := coeff_X_zero
  old_natDegree_le := natDegree_X_le
  old_fits k h1 h2 := by omega
  old_discrepancy := (coeff_X_mul S 0).trans hS
  old_ne_zero := one_ne_zero

theorem coeff_X_mul_mul_eq_zero {p : K[X]} {a : Nat} (h : ∀ k, a < k → k ≤ n → (p * S).coeff k = 0) :
    ∀ k, a + 1 < k → k ≤ n + 1 → (X * p * S).coeff k = 0 := by
  intro k h1 h2
  obtain ⟨k, rfl⟩ := Nat.exists_eq_add_of_le' (Nat.one_le_of_lt h1)
  rw [mul_assoc, coeff_X_mul]
  exact h k (by omega) (by omega)

/-- The locator after a step: the old one plus that multiple of the shifted one that cancels the discrepancy. -/
noncomputable def corrected (S c b : K[X]) (n : Nat) (β : K) : K[X] := c - C ((c * S).coeff (n + 1) / β) * b

theorem corrected_of_zero (h : (c * S).coeff (n + 1) = 0) : corrected S c b n β = c := by
  rw [corrected, h, zero_div, C_0, zero_mul, sub_zero]

namespace Massey

variable (h : Massey S c b n L β)
include h

theorem corrected_coeff_zero : (corrected S c b n β).coeff 0 = 1 := by
  rw [corrected, coeff_sub, coeff_C_mul, h.old_coeff_zero, h.coeff_zero, mul_zero, sub_zero]

theorem corrected_natDegree_le : (corrected S c b n β).natDegree ≤ max L (n + 1 - L) :=
  (natDegree_sub_le _ _).trans (max_le_max h.natDegree_le ((natDegree_C_mul_le _ _).trans h.old_natDegree_le))

theorem corrected_fits : ∀ k, max L (n + 1 - L) < k → k ≤ n + 1 → (corrected S c b n β * S).coeff k = 0 := by
  intro k h1 h2
  obtain ⟨hL, hL'⟩ := max_lt_iff.mp h1
  rw [corrected, sub_mul, mul_assoc, coeff_sub, coeff_C_mul]
  obtain hk | rfl := Nat.le_succ_iff.mp h2
  · rw [h.fits k hL hk, h.old_fits k hL' hk, mul_zero, sub_zero]
  · rw [h.old_discrepancy, div_mul_cancel₀ _ h.old_ne_zero, sub_self]

/-- A step that keeps the length, which it may when the discrepancy is 0 or `n < 2 L`. -/
theorem keep (hkeep : (c * S).coeff (n + 1) = 0 ∨ n < 2 * L) : Massey S (corrected S c b n β) (X * b) (n + 1) L β := by
  have hle := h.length_le
  have hdegree : (corrected S c b n β).natDegree ≤ L ∧
      ∀ k, L < k → k ≤ n + 1 → (corrected S c b n β * S).coeff k = 0 := by
    obtain h0 | hlt := hkeep
    · rw [corrected_of_zero h0]
      refine ⟨h.natDegree_le, fun k h1 h2 => ?_⟩
      obtain hk | rfl := Nat.le_succ_iff.mp h2
      · exact h.fits k h1 hk
      · exact h0
    · have hmax : max L (n + 1 - L) = L := max_eq_left (by omega)
      exact ⟨hmax ▸ h.corrected_natDegree_le, fun k h1 h2 => h.corrected_fits k (hmax.symm ▸ h1) h2⟩
  have hlast : n + 1 + 1 - L = n + 1 - L + 1 := by omega
  exact {
    length_le := hle.trans (Nat.le_succ n)
    coeff_zero := h.corrected_coeff_zero
    natDegree_le := hdegree.1
    fits := hdegree.2
    old_coeff_zero := coeff_X_mul_zero b
    old_natDegree_le := by
      rw [hlast]
      exact (natDegree_mul_le.trans (Nat.add_le_add natDegree_X_le h.old_natDegree_le)).trans (Nat.add_comm _ _).le
    old_fits := hlast ▸ coeff_X_mul_mul_eq_zero h.old_fits
    old_discrepancy := by rw [mul_assoc, coeff_X_mul, h.old_discrepancy]
    old_ne_zero := h.old_ne_zero }

/-- A step that changes the length. -/
theorem change (hd : (c * S).coeff (n + 1) ≠ 0) (hL : 2 * L ≤ n) :
    Massey S (corrected S c b n β) (X * c) (n + 1) (n + 1 - L) ((c * S).coeff (n + 1)) := by
  have hmax : max L (n + 1 - L) = n + 1 - L := max_eq_right (by omega)
  have hlast : n + 1 + 1 - (n + 1 - L) = L + 1 := by omega
  exact {
    length_le := Nat.sub_le _ _
    coeff_zero := h.corrected_coeff_zero
    natDegree_le := hmax ▸ h.corrected_natDegree_le
    fits := fun k h1 h2 => h.corrected_fits k (hmax.symm ▸ h1) h2
    old_coeff_zero := coeff_X_mul_zero c
    old_natDegree_le := by
      rw [hlast]
      exact (natDegree_mul_le.trans (Nat.add_le_add natDegree_X_le h.natDegree_le)).trans (Nat.add_comm _ _).le
    old_fits := hlast ▸ coeff_X_mul_mul_eq_zero h.fits
    old_discrepancy := by rw [mul_assoc, coeff_X_mul]
    old_ne_zero := hd }

end Massey

/-! ## No shorter polynomial fits -/

/-- A coefficient of a product when only the constant coefficient of one factor meets a coefficient of the other. -/
theorem coeff_mul_of_natDegree_le {p q : K[X]} {a : Nat} (hp : p.natDegree ≤ a)
    (hq : ∀ k, n - a ≤ k → k < n → q.coeff k = 0) : (p * q).coeff n = p.coeff 0 * q.coeff n := by
  rw [coeff_mul]
  refine Finset.sum_eq_single (0, n) (fun ⟨i, j⟩ hij hne => ?_) (fun h => absurd (by simp) h)
  rw [Finset.HasAntidiagonal.mem_antidiagonal] at hij
  have hij : i + j = n := hij
  by_cases hi : i ≤ a
  · have hi0 : i ≠ 0 := by
      rintro rfl
      exact hne (by rw [← hij, Nat.zero_add])
    rw [hq j (by omega) (by omega), mul_zero]
  · rw [coeff_eq_zero_of_natDegree_lt (by omega), zero_mul]

/-- Massey's bound: a polynomial of length `ν` that also fits the next syndrome has `ν + L > n` when `c` does not fit it. -/
theorem Massey.lt_add_of_fits (h : Massey S c b n L β) (hd : (c * S).coeff (n + 1) ≠ 0) {q : K[X]} {ν N : Nat}
    (hN : n + 1 ≤ N) (hq0 : q.coeff 0 = 1) (hqdeg : q.natDegree ≤ ν) (hqfits : ∀ k, ν < k → k ≤ N → (q * S).coeff k = 0) :
    n < ν + L := by
  by_contra hle
  have hleft : (q * (c * S)).coeff (n + 1) = (c * S).coeff (n + 1) := by
    rw [coeff_mul_of_natDegree_le hqdeg fun k h1 h2 => h.fits k (by omega) (by omega), hq0, one_mul]
  have hright : (c * (q * S)).coeff (n + 1) = 0 := by
    rw [coeff_mul_of_natDegree_le h.natDegree_le fun k h1 h2 => hqfits k (by omega) (by omega),
      hqfits _ (by omega) hN, mul_zero]
  exact hd (by rw [← hleft, mul_left_comm, hright])

end

end Sys2Proof.Machine
end

section
/-! The loop `berlekampMassey` keeps what `Massey` says (46_bch.md R236, R238), so its locator is a shortest polynomial that fits
the six syndromes. -/

namespace Sys2Proof.Machine

open Sys2Proof.Claims Polynomial

/-! ## The array operations as polynomial operations (R236) -/

theorem toPoly_replicate_zero_append (k : Nat) (p : List Nibble) :
    toPoly (List.replicate k 0 ++ p) = X ^ k * toPoly p := by
  induction k with
  | zero => rw [List.replicate_zero, List.nil_append, pow_zero, one_mul]
  | succ k ih => rw [List.replicate_succ, List.cons_append, toPoly, ih, emb_zero, C_0, zero_add, pow_succ', mul_assoc]

theorem toPoly_polyOne : toPoly polyOne = 1 := by
  have hzero := toPoly_replicate_zero_append (Config.maxPoly - 1) []
  rw [List.append_nil, toPoly, mul_zero] at hzero
  rw [polyOne, toPoly, hzero, mul_zero, add_zero, emb_one, C_1]

/-- `poly_add` is the sum with the shifted multiple, when no term of it falls outside the array. -/
theorem toPoly_polyAdd {dst src : Poly 4} (hlen : src.length = dst.length) (c : Nibble) {shift : Nat}
    (hdeg : (X ^ shift * toPoly src).natDegree < dst.length) :
    toPoly (polyAdd gf16 dst src c shift) = toPoly dst + C (emb c) * (X ^ shift * toPoly src) := by
  by_cases hc : c = 0
  · rw [polyAdd, if_pos hc, hc, emb_zero, C_0, zero_mul, add_zero]
  ext i
  rw [toPoly_coeff, coeff_add, coeff_C_mul, toPoly_coeff]
  by_cases hi : i < dst.length
  · have hshift : i < (List.replicate shift 0 ++ src).length := by
      rw [List.length_append, List.length_replicate]; omega
    have hsum : i < (polyAdd gf16 dst src c shift).length := by rwa [polyAdd_length gf16 hlen]
    have hterm : (polyAdd gf16 dst src c shift).getD i 0 =
        dst.getD i 0 ^^^ mulF gf16 ((List.replicate shift 0 ++ src).getD i 0) c := by
      rw [List.getD_eq_getElem _ 0 hsum, List.getD_eq_getElem _ 0 hi, List.getD_eq_getElem _ 0 hshift]
      simp only [polyAdd, if_neg hc, List.getElem_zipWith]
    rw [hterm, emb_xor, emb_mulF, ← toPoly_replicate_zero_append, toPoly_coeff, mul_comm]
  · have hsum : (polyAdd gf16 dst src c shift).length ≤ i := by rw [polyAdd_length gf16 hlen]; omega
    rw [List.getD_eq_default _ _ hsum, List.getD_eq_default _ _ (Nat.not_lt.mp hi), emb_zero,
      coeff_eq_zero_of_natDegree_lt (by omega), mul_zero, add_zero]

/-! ## The discrepancy and the factor (R238) -/

theorem coeff_mul_eq_sum_of_natDegree_le {K : Type} [Field K] {p q : K[X]} {a k : Nat} (hp : p.natDegree ≤ a) (ha : a ≤ k) :
    (p * q).coeff k = ∑ i ∈ Finset.range (a + 1), p.coeff i * q.coeff (k - i) := by
  rw [coeff_mul, Finset.Nat.sum_antidiagonal_eq_sum_range_succ fun i j => p.coeff i * q.coeff j]
  symm
  refine Finset.sum_subset (Finset.range_mono (by omega)) fun i _ hi => ?_
  rw [Finset.mem_range] at hi
  rw [coeff_eq_zero_of_natDegree_lt (by omega), zero_mul]

/-- The polynomial of a list of syndromes, with 1 in front (the coefficient that no discrepancy meets). -/
noncomputable def synPoly (s : List Nibble) : BigField[X] := toPoly (1 :: s)

theorem synPoly_coeff_zero (s : List Nibble) : (synPoly s).coeff 0 = 1 := by
  rw [synPoly, toPoly_coeff, List.getD_cons_zero, emb_one]

theorem synPoly_coeff_succ (s : List Nibble) (k : Nat) : (synPoly s).coeff (k + 1) = emb (s.getD k 0) := by
  rw [synPoly, toPoly_coeff, List.getD_cons_succ]

theorem emb_foldl_discrepancy (s : List Nibble) (t : BmState 4) (n l : Nat) :
    emb ((List.range l).foldl
      (fun d j => d ^^^ mulF gf16 (t.C.getD (j + 1) 0) (s.getD (n - (j + 1)) 0)) (s.getD n 0)) =
      ∑ j ∈ Finset.range l, emb (t.C.getD (j + 1) 0) * emb (s.getD (n - (j + 1)) 0) + emb (s.getD n 0) := by
  induction l with
  | zero => rw [Finset.sum_range_zero, zero_add]; rfl
  | succ l ih =>
    rw [List.range_succ, List.foldl_concat, emb_xor, ih, emb_mulF, Finset.sum_range_succ]
    ring

section
variable {s : List Nibble} {t : BmState 4} {n : Nat}

theorem emb_bmDiscrepancy (h0 : (toPoly t.C).coeff 0 = 1) (hdeg : (toPoly t.C).natDegree ≤ t.L) (hL : t.L ≤ n) :
    emb (bmDiscrepancy gf16 s t n) = (toPoly t.C * synPoly s).coeff (n + 1) := by
  rw [coeff_mul_eq_sum_of_natDegree_le hdeg (hL.trans (Nat.le_succ n)), Finset.sum_range_succ', h0, one_mul, Nat.sub_zero,
    synPoly_coeff_succ]
  refine (emb_foldl_discrepancy s t n t.L).trans ?_
  congr 1
  refine Finset.sum_congr rfl fun j hj => ?_
  have hj : j < t.L := Finset.mem_range.mp hj
  have hpos : n + 1 - (j + 1) = n - (j + 1) + 1 := by omega
  rw [toPoly_coeff, hpos, synPoly_coeff_succ]

theorem emb_bmFactor (hd : bmDiscrepancy gf16 s t n ≠ 0) (hb : t.b ≠ 0) :
    emb (bmFactor gf16 s t n) = emb (bmDiscrepancy gf16 s t n) / emb t.b := by
  have hexp : 15 - log4 t.b + log4 (bmDiscrepancy gf16 s t n) + log4 t.b = log4 (bmDiscrepancy gf16 s t n) + 15 := by
    have := log4_lt t.b
    omega
  have hpow : emb (bmFactor gf16 s t n) = alpha ^ (15 - log4 t.b + log4 (bmDiscrepancy gf16 s t n)) := emb_exp4_mod _
  rw [eq_div_iff ((emb_eq_zero_iff _).not.mpr hb), hpow, emb_eq_pow_log4 hb, ← pow_add, hexp, pow_add, alpha_pow_fifteen,
    mul_one, ← emb_eq_pow_log4 hd]

/-! ## The loop keeps the invariant -/

/-- The variables `t` after `n` syndromes of `s`, as polynomials. -/
def BmInv (s : List Nibble) (n : Nat) (t : BmState 4) : Prop :=
  Massey (synPoly s) (toPoly t.C) (X ^ t.m * toPoly t.B) n t.L (emb t.b)

theorem bmInv_start (s : List Nibble) : BmInv s 0 bmStart := by
  rw [BmInv, bmStart, toPoly_polyOne, pow_one, mul_one, emb_one]
  exact massey_start (synPoly_coeff_zero s)

theorem toPoly_corrected (h : BmInv s n t) (hC : t.C.length = Config.maxPoly) (hB : t.B.length = Config.maxPoly)
    (hn : n + 1 < Config.maxPoly) (hd : bmDiscrepancy gf16 s t n ≠ 0) :
    toPoly (polyAdd gf16 t.C t.B (bmFactor gf16 s t n) t.m) =
      corrected (synPoly s) (toPoly t.C) (X ^ t.m * toPoly t.B) n (emb t.b) := by
  have hb : t.b ≠ 0 := (emb_eq_zero_iff _).not.mp h.old_ne_zero
  have hdeg : (X ^ t.m * toPoly t.B).natDegree < t.C.length := by
    have := h.old_natDegree_le
    omega
  rw [toPoly_polyAdd (hB.trans hC.symm) _ hdeg, emb_bmFactor hd hb,
    emb_bmDiscrepancy h.coeff_zero h.natDegree_le h.length_le, corrected, CharTwo.sub_eq_add]

theorem bmStep_bmInv (h : BmInv s n t) (hC : t.C.length = Config.maxPoly) (hB : t.B.length = Config.maxPoly)
    (hn : n + 1 < Config.maxPoly) : BmInv s (n + 1) (bmStep gf16 s t n) := by
  have hdisc : emb (bmDiscrepancy gf16 s t n) = (toPoly t.C * synPoly s).coeff (n + 1) :=
    emb_bmDiscrepancy h.coeff_zero h.natDegree_le h.length_le
  have hshift : X * (X ^ t.m * toPoly t.B) = X ^ (t.m + 1) * toPoly t.B := by rw [← mul_assoc, pow_succ']
  by_cases hd : bmDiscrepancy gf16 s t n = 0
  · have hzero : (toPoly t.C * synPoly s).coeff (n + 1) = 0 := by rw [← hdisc, hd, emb_zero]
    have hkeep := Massey.keep h (.inl hzero)
    rw [corrected_of_zero hzero, hshift] at hkeep
    rw [bmStep_of_zero hd]
    exact hkeep
  by_cases hL : 2 * t.L ≤ n
  · have hchange := Massey.change h (hdisc ▸ (emb_eq_zero_iff _).not.mpr hd) hL
    rw [← toPoly_corrected h hC hB hn hd, ← hdisc, ← pow_one X] at hchange
    rw [bmStep_of_change hd hL]
    exact hchange
  · have hkeep := Massey.keep h (.inr (Nat.not_le.mp hL))
    rw [← toPoly_corrected h hC hB hn hd, hshift] at hkeep
    rw [bmStep_of_keep hd hL]
    exact hkeep

end

theorem bmRun_bmInv (s : List Nibble) {n : Nat} (hn : n ≤ 6) : BmInv s n (bmRun s n) := by
  induction n with
  | zero => exact bmInv_start s
  | succ n ih =>
    obtain ⟨hC, hB⟩ := bmRun_lengths s n
    have hmax := Config.maxPoly_ge
    rw [bmRun_succ]
    exact bmStep_bmInv (ih (by omega)) hC hB (by omega)

/-- The loop's length never exceeds that of a polynomial that fits all six syndromes. -/
theorem bmRun_length_le {s : List Nibble} {q : BigField[X]} {ν : Nat} (hq0 : q.coeff 0 = 1) (hqdeg : q.natDegree ≤ ν)
    (hqfits : ∀ k, ν < k → k ≤ 6 → (q * synPoly s).coeff k = 0) {n : Nat} (hn : n ≤ 6) : (bmRun s n).L ≤ ν := by
  induction n with
  | zero => exact Nat.zero_le ν
  | succ n ih =>
    have hinv := bmRun_bmInv s (n := n) (by omega)
    have hle := ih (by omega)
    rw [bmRun_succ]
    by_cases hd : bmDiscrepancy gf16 s (bmRun s n) n = 0
    · rw [bmStep_of_zero hd]
      exact hle
    by_cases hL : 2 * (bmRun s n).L ≤ n
    · have hdisc : (toPoly (bmRun s n).C * synPoly s).coeff (n + 1) ≠ 0 :=
        emb_bmDiscrepancy hinv.coeff_zero hinv.natDegree_le hinv.length_le ▸ (emb_eq_zero_iff _).not.mpr hd
      have hlt := Massey.lt_add_of_fits hinv hdisc hn hq0 hqdeg hqfits
      rw [bmStep_of_change hd hL]
      show n + 1 - (bmRun s n).L ≤ ν
      omega
    · rw [bmStep_of_keep hd hL]
      exact hle

end Sys2Proof.Machine
end

section
/-! Power sums and their locator (46_bch.md R233, R235, over any field): a polynomial that fits enough power sums of the points of
a finite set, and is no longer than the set is large, has the inverses of those points as its roots, and no others. -/

namespace Sys2Proof.Machine

open Polynomial

section
variable {K : Type} [Field K] {S p : K[X]} {E : Finset Nat} {x : Nat → K} {N a k : Nat}

/-- The coefficients of `S` from 1 to `N` are the power sums of the points `x j`, `j` in `E`. -/
def PowerSums (S : K[X]) (E : Finset Nat) (x : Nat → K) (N : Nat) : Prop :=
  ∀ k, 1 ≤ k → k ≤ N → S.coeff k = ∑ j ∈ E, x j ^ k

theorem coeff_mul_powerSums (hS : PowerSums S E x N) (hx : ∀ j, x j ≠ 0) (hp : p.natDegree ≤ a) (h1 : a < k) (h2 : k ≤ N) :
    (p * S).coeff k = ∑ j ∈ E, x j ^ k * p.eval (x j)⁻¹ := by
  have hterm (i : Nat) (hi : i ∈ Finset.range (a + 1)) :
      p.coeff i * S.coeff (k - i) = ∑ j ∈ E, x j ^ k * (p.coeff i * (x j)⁻¹ ^ i) := by
    have hi : i < a + 1 := Finset.mem_range.mp hi
    rw [hS (k - i) (by omega) (by omega), Finset.mul_sum]
    refine Finset.sum_congr rfl fun j _ => ?_
    rw [pow_sub₀ _ (hx j) (by omega), inv_pow]
    ring
  rw [coeff_mul_eq_sum_of_natDegree_le hp h1.le, Finset.sum_congr rfl hterm, Finset.sum_comm]
  refine Finset.sum_congr rfl fun j _ => ?_
  rw [eval_eq_sum_range' (Nat.lt_succ_of_le hp), Finset.mul_sum]

/-! ## The locator polynomial -/

/-- The product of the factors `1 - x_j X`. -/
noncomputable def locatorPoly (E : Finset Nat) (x : Nat → K) : K[X] := ∏ j ∈ E, (1 - C (x j) * X)

theorem locatorPoly_coeff_zero (E : Finset Nat) (x : Nat → K) : (locatorPoly E x).coeff 0 = 1 := by
  rw [coeff_zero_eq_eval_zero, locatorPoly, eval_prod]
  exact Finset.prod_eq_one fun j _ => by simp

theorem locatorPoly_natDegree_le (E : Finset Nat) (x : Nat → K) : (locatorPoly E x).natDegree ≤ E.card := by
  have hfactor (j : Nat) : (1 - C (x j) * X : K[X]).natDegree ≤ 1 :=
    (natDegree_sub_le _ _).trans (max_le (natDegree_one.trans_le zero_le_one) ((natDegree_C_mul_le _ _).trans natDegree_X_le))
  calc (locatorPoly E x).natDegree ≤ ∑ j ∈ E, (1 - C (x j) * X : K[X]).natDegree := natDegree_prod_le _ _
    _ ≤ ∑ _j ∈ E, 1 := Finset.sum_le_sum fun j _ => hfactor j
    _ = E.card := by rw [Finset.sum_const, smul_eq_mul, mul_one]

theorem locatorPoly_eval_inv (hx : ∀ j, x j ≠ 0) {j : Nat} (hj : j ∈ E) : (locatorPoly E x).eval (x j)⁻¹ = 0 := by
  rw [locatorPoly, eval_prod]
  refine Finset.prod_eq_zero hj ?_
  simp [hx j]

/-- The locator fits every power sum beyond its length. -/
theorem locatorPoly_fits (hS : PowerSums S E x N) (hx : ∀ j, x j ≠ 0) :
    ∀ k, E.card < k → k ≤ N → (locatorPoly E x * S).coeff k = 0 := by
  intro k h1 h2
  rw [coeff_mul_powerSums hS hx (locatorPoly_natDegree_le E x) h1 h2]
  exact Finset.sum_eq_zero fun j hj => by rw [locatorPoly_eval_inv hx hj, mul_zero]

/-! ## What fits the power sums has the locator's roots -/

theorem eval_inv_eq_zero_of_fits (hS : PowerSums S E x N) (hx : ∀ j, x j ≠ 0) (hinj : Set.InjOn x E)
    (hp : p.natDegree ≤ a) (hN : a + E.card ≤ N) (hfits : ∀ k, a < k → k ≤ N → (p * S).coeff k = 0) {i : Nat}
    (hi : i ∈ E) : p.eval (x i)⁻¹ = 0 := by
  classical
  set q : K[X] := ∏ j ∈ E.erase i, (X - C (x j)) with hq
  have hpos : 0 < E.card := Finset.card_pos.mpr ⟨i, hi⟩
  have hqdeg : q.natDegree < E.card := by
    rw [hq, natDegree_prod_of_monic _ _ fun j _ => monic_X_sub_C _]
    simp only [natDegree_X_sub_C, Finset.sum_const, smul_eq_mul, mul_one, Finset.card_erase_of_mem hi]
    omega
  have hother {j : Nat} (hj : j ∈ E) (hne : j ≠ i) : q.eval (x j) = 0 := by
    rw [hq, eval_prod]
    exact Finset.prod_eq_zero (Finset.mem_erase.mpr ⟨hne, hj⟩) (by simp)
  have hself : q.eval (x i) ≠ 0 := by
    rw [hq, eval_prod]
    refine Finset.prod_ne_zero_iff.mpr fun j hj => ?_
    obtain ⟨hne, hjE⟩ := Finset.mem_erase.mp hj
    rw [eval_sub, eval_X, eval_C]
    exact sub_ne_zero.mpr fun h => hne (hinj hi hjE h).symm
  have hcomb : ∑ j ∈ E, x j ^ (a + 1) * q.eval (x j) * p.eval (x j)⁻¹ = 0 := by
    calc ∑ j ∈ E, x j ^ (a + 1) * q.eval (x j) * p.eval (x j)⁻¹
        = ∑ l ∈ Finset.range E.card, q.coeff l * ∑ j ∈ E, x j ^ (a + 1 + l) * p.eval (x j)⁻¹ := by
          simp only [Finset.mul_sum]
          rw [Finset.sum_comm]
          refine Finset.sum_congr rfl fun j _ => ?_
          rw [eval_eq_sum_range' hqdeg, Finset.mul_sum, Finset.sum_mul]
          exact Finset.sum_congr rfl fun l _ => by rw [pow_add]; ring
      _ = 0 := by
          refine Finset.sum_eq_zero fun l hl => ?_
          have hl : l < E.card := Finset.mem_range.mp hl
          rw [← coeff_mul_powerSums hS hx hp (by omega) (by omega), hfits _ (by omega) (by omega), mul_zero]
  rw [Finset.sum_eq_single_of_mem i hi fun j hj hne => by rw [hother hj hne, mul_zero, zero_mul]] at hcomb
  exact (mul_eq_zero.mp hcomb).resolve_left (mul_ne_zero (pow_ne_zero _ (hx i)) hself)

/-- The roots, among the inverses of distinct points, of a fitting polynomial no longer than the set is large. -/
theorem eval_inv_eq_zero_iff_of_fits (hS : PowerSums S E x N) (hx : ∀ j, x j ≠ 0) {T : Finset Nat}
    (hinj : Set.InjOn x T) (hE : E ⊆ T) (hp0 : p.coeff 0 = 1) (hp : p.natDegree ≤ a) (ha : a ≤ E.card)
    (hN : a + E.card ≤ N) (hfits : ∀ k, a < k → k ≤ N → (p * S).coeff k = 0) {i : Nat} (hi : i ∈ T) :
    p.eval (x i)⁻¹ = 0 ↔ i ∈ E := by
  classical
  have hroot {j : Nat} (hj : j ∈ E) : p.eval (x j)⁻¹ = 0 :=
    eval_inv_eq_zero_of_fits hS hx (hinj.mono hE) hp hN hfits hj
  refine ⟨fun h => by_contra fun hout => ?_, hroot⟩
  have hinv : Set.InjOn (fun j => (x j)⁻¹) (insert i E : Finset Nat) := by
    intro j hj l hl hjl
    have hsub : insert i E ⊆ T := Finset.insert_subset hi hE
    exact hinj (hsub hj) (hsub hl) (inv_injective hjl)
  have hcard : ((insert i E).image fun j => (x j)⁻¹).card = E.card + 1 := by
    rw [Finset.card_image_of_injOn hinv, Finset.card_insert_of_notMem hout]
  have hzero : p = 0 := by
    refine eq_zero_of_natDegree_lt_card_of_eval_eq_zero' p ((insert i E).image fun j => (x j)⁻¹) ?_ (by omega)
    refine Finset.forall_mem_image.mpr fun j hj => ?_
    obtain rfl | hj := Finset.mem_insert.mp hj
    · exact h
    · exact hroot hj
  rw [hzero, coeff_zero] at hp0
  exact zero_ne_one hp0

end

end Sys2Proof.Machine
end

section
/-! The syndrome path as a whole (46_bch.md sections 2 to 4): the locator of any word has degree at most 5, and that of a word
with at most three wrong bits has exactly the wrong positions as its roots. -/

namespace Sys2Proof.Machine

open Sys2Proof.Claims Polynomial

/-! ## The locator of a word -/

/-- The syndromes are the coefficients from 1 to 6 (R233). -/
theorem synPoly_fmtSyn_coeff (u : BitVec 15) {k : Nat} (h1 : 1 ≤ k) (h6 : k ≤ 6) :
    (synPoly (fmtSyn u).toList).coeff k = wordEval u (alpha ^ k) := by
  obtain ⟨k, rfl⟩ := Nat.exists_eq_add_of_le' h1
  rw [synPoly_coeff_succ, fmtSyn_getD u h6, emb_syndrome]

theorem locatorOf_bmInv (u : BitVec 15) : BmInv (fmtSyn u).toList 6 (bmRun (fmtSyn u).toList 6) :=
  bmRun_bmInv _ le_rfl

theorem locatorOf_coeff_zero (u : BitVec 15) : (toPoly (locatorOf u)).coeff 0 = 1 :=
  Massey.coeff_zero (locatorOf_bmInv u)

/-- `S(6)` is the square of `S(3)`, so the polynomial `1 + S(3) x^3` fits it, and no length of 6 is needed. -/
theorem bmRun_fmtSyn_length_le (u : BitVec 15) : (bmRun (fmtSyn u).toList 6).L ≤ 5 := by
  set S := synPoly (fmtSyn u).toList with hS
  have hsq : S.coeff 6 = S.coeff 3 * S.coeff 3 := by
    rw [hS, synPoly_fmtSyn_coeff u (by decide) le_rfl, synPoly_fmtSyn_coeff u (by decide) (by decide), ← pow_two,
      ← wordEval_sq, ← pow_mul]
  refine bmRun_length_le (q := 1 - C (S.coeff 3) * X ^ 3) (by simp) ?_ (fun k h1 h2 => ?_) le_rfl
  · refine (natDegree_sub_le _ _).trans (max_le (by simp) ?_)
    exact (natDegree_C_mul_X_pow_le _ 3).trans (by decide)
  · obtain rfl : k = 6 := by omega
    rw [sub_mul, one_mul, mul_assoc, coeff_sub, coeff_C_mul, coeff_X_pow_mul S 3 3, hsq, sub_self]

theorem locatorOf_natDegree_le (u : BitVec 15) : (toPoly (locatorOf u)).natDegree ≤ 5 :=
  (Massey.natDegree_le (locatorOf_bmInv u)).trans (bmRun_fmtSyn_length_le u)

theorem locatorOf_getD_zero (u : BitVec 15) : (locatorOf u).getD 0 0 = 1 := by
  refine emb_injective ?_
  rw [← toPoly_coeff, locatorOf_coeff_zero, emb_one]

theorem locatorOf_getD_high (u : BitVec 15) {i : Nat} (hi : 6 ≤ i) : (locatorOf u).getD i 0 = 0 := by
  refine (emb_eq_zero_iff _).mp ?_
  have hdeg := locatorOf_natDegree_le u
  rw [← toPoly_coeff, coeff_eq_zero_of_natDegree_lt (by omega)]

theorem fmtCor_locator {w u' : BitVec 15} {syn : Vector Nibble 6} {sigma : Poly 4} (h : fmtCor w = some (u', syn, sigma)) :
    sigma = locatorOf (w ^^^ fmtMask) := by
  by_cases hz : ∀ x ∈ (fmtSyn (flipRoots (locatorOf (w ^^^ fmtMask)) (w ^^^ fmtMask))).toList, x = 0
  · rw [fmtCor_corrected hz, Option.some_inj, Prod.mk_inj, Prod.mk_inj] at h
    obtain ⟨-, -, hsigma⟩ := h
    exact hsigma.symm
  · rw [fmtCor_uncorrected hz] at h
    exact absurd h.symm (Option.some_ne_none _)

/-- Settles O49: a successful `FM.COR` stores the locator of the word, which starts with 1 and has degree at most 5. -/
theorem storedLocatorHasLowDegree : Obligations.StoredLocatorHasLowDegree := by
  intro w s t ht hok
  have hexec : execFmCor w s = .next t := ht
  obtain h | h | ⟨u', syn, sigma, hcor, -, h⟩ := execFmCor_cases w s
  · obtain rfl := fail_next.mp (h.symm.trans hexec)
    cases hok
  · obtain rfl := fail_next.mp (h.symm.trans hexec)
    cases hok
  · obtain rfl := ok_next.mp (h.symm.trans hexec)
    rw [okState_sigma, setSigma_sigma, fmtCor_locator hcor, locatorArray_locatorOf_toList]
    exact ⟨locatorOf_getD_zero _, fun i => locatorOf_getD_high _⟩

/-! ## Up to three wrong bits -/

/-- The positions of the wrong bits. -/
def errorSet (e : BitVec 15) : Finset Nat := (Finset.range 15).filter fun j => e.getLsbD j

theorem errorSet_card (e : BitVec 15) : (errorSet e).card = popcount e := by
  rw [popcount, List.countP_eq_length_filter]
  simp [errorSet, Finset.card, Finset.filter, Finset.range, Multiset.range]

theorem wordEval_eq_sum_errorSet (e : BitVec 15) (k : Nat) :
    wordEval e (alpha ^ k) = ∑ j ∈ errorSet e, (alpha ^ j) ^ k := by
  rw [wordEval, errorSet, Finset.sum_filter]
  refine Finset.sum_congr rfl fun j _ => ?_
  rw [bitVal, ite_mul, one_mul, zero_mul, ← pow_mul, ← pow_mul, mul_comm]

/-- The syndromes of a code word with errors are those of the errors. -/
theorem powerSums_of_codeword (f : BitVec 5) (e : BitVec 15) :
    PowerSums (synPoly (fmtSyn ((f ++ fmtParity f) ^^^ e)).toList) (errorSet e) (alpha ^ ·) 6 := by
  intro k h1 h6
  rw [synPoly_fmtSyn_coeff _ h1 h6, wordEval_xor, (fmtSyn_eq_zero_iff _).mp (fmtSyn_codeword f) k h1 h6, zero_add,
    wordEval_eq_sum_errorSet]

theorem emb_exp4_sub {i : Nat} (hi : i < 15) : emb (exp4 (15 - i)) = (alpha ^ i)⁻¹ := by
  refine eq_inv_of_mul_eq_one_left ?_
  rw [emb_exp4 (Nat.sub_le 15 i), ← pow_add, Nat.sub_add_cancel hi.le, alpha_pow_fifteen]

section
variable (f : BitVec 5) {e : BitVec 15} (he : popcount e ≤ 3)
include he

/-- The locator vanishes at the inverses of the wrong positions and nowhere else on the word. -/
theorem polyEval_locatorOf_eq_zero_iff {i : Nat} (hi : i < 15) :
    polyEval gf16 (locatorOf ((f ++ fmtParity f) ^^^ e)) (exp4 (15 - i)) = 0 ↔ e.getLsbD i = true := by
  have hsums := powerSums_of_codeword f e
  have hne (j : Nat) : alpha ^ j ≠ 0 := pow_ne_zero j alpha_ne_zero
  have hcard : (errorSet e).card ≤ 3 := (errorSet_card e).trans_le he
  have hlen := bmRun_length_le (locatorPoly_coeff_zero _ _) (locatorPoly_natDegree_le _ _) (locatorPoly_fits hsums hne) le_rfl
  have hinv := locatorOf_bmInv ((f ++ fmtParity f) ^^^ e)
  have hinj : Set.InjOn (alpha ^ ·) (Finset.range 15 : Set Nat) :=
    alpha_pow_injOn.mono fun j hj => Finset.mem_range.mp hj
  have hroots := eval_inv_eq_zero_iff_of_fits hsums hne hinj (Finset.filter_subset _ _) hinv.coeff_zero hinv.natDegree_le
    hlen (by omega) hinv.fits (Finset.mem_range.mpr hi)
  rw [← emb_eq_zero_iff, emb_polyEval, emb_exp4_sub hi, locatorOf_eq_bmRun]
  refine hroots.trans ?_
  rw [errorSet, Finset.mem_filter, Finset.mem_range]
  exact and_iff_right hi

/-- The correction loop restores the code word. -/
theorem flipRoots_locatorOf : flipRoots (locatorOf ((f ++ fmtParity f) ^^^ e)) ((f ++ fmtParity f) ^^^ e) = f ++ fmtParity f := by
  refine BitVec.eq_of_getLsbD_eq fun i hi => ?_
  have hroot : decide (polyEval gf16 (locatorOf ((f ++ fmtParity f) ^^^ e)) (exp4 (15 - i)) = 0) = e.getLsbD i := by
    rw [Bool.eq_iff_iff, decide_eq_true_iff]
    exact polyEval_locatorOf_eq_zero_iff f he hi
  rw [flipRoots_getLsbD _ _ hi, hroot, BitVec.getLsbD_xor, Bool.xor_assoc, Bool.xor_self, Bool.xor_false]

end

/-- Settles O47: the locator's roots are the wrong positions, so the loop restores the code word and the last test passes. -/
theorem formatCorrectionFixesThreeErrors : Obligations.FormatCorrectionFixesThreeErrors := by
  intro f e s he
  have hunmask : fmtEnc f ^^^ e ^^^ fmtMask = (f ++ fmtParity f) ^^^ e := by
    rw [BitVec.xor_assoc, BitVec.xor_comm e, ← BitVec.xor_assoc, fmtEnc_unmasked]
  have hflip : flipRoots (locatorOf (fmtEnc f ^^^ e ^^^ fmtMask)) (fmtEnc f ^^^ e ^^^ fmtMask) = fmtEnc f ^^^ fmtMask := by
    rw [hunmask, flipRoots_locatorOf f he, fmtEnc_unmasked]
  have hsyn : ∀ x ∈ (fmtSyn (fmtEnc f ^^^ fmtMask)).toList, x = 0 := (fmtEnc_unmasked f).symm ▸ fmtSyn_codeword f
  have hcor := fmtCor_corrected (w := fmtEnc f ^^^ e) (hflip.symm ▸ hsyn)
  rw [hflip] at hcor
  refine ⟨locatorArray (locatorOf (fmtEnc f ^^^ e ^^^ fmtMask)), ?_, ?_⟩
  · rw [locatorArray_locatorOf_toList]
    exact locatorOf_getD_zero _
  · exact exec_fmCor_some s (setWidth_toNat_lt _) (by rw [setWidth_setWidth_word]; exact hcor)

end Sys2Proof.Machine
end
